-- ==== Sys2Proof/Word.lean ====
section
/-! DEFINITION. The widths of the machine's words (spec/00_scope.md R10, spec/30_encoding.md R80, R84). -/

namespace Sys2Proof

/-- One byte on the wire (20_memory.md R54). -/
abbrev Byte := BitVec 8

/-- A register pattern, `DATA_WIDTH` = 16 bits (00_scope.md R10). -/
abbrev Word := BitVec 16

/-- A register address, `REG_ADDR_WIDTH` = 8 bits (20_memory.md R50). -/
abbrev Addr := BitVec 8

/-- A format P command word (30_encoding.md R80). -/
abbrev PortWord := BitVec 26

/-- A format S command word (30_encoding.md R84). -/
abbrev SeqWord := BitVec 14

end Sys2Proof
end

