-- ==== Sys2Proof/Config.lean ====
section
/-! DEFINITION. What the spec leaves open: the type of the `ADC_TIE` parameter, and the values nobody
fixes, as constants without a body (spec/00_scope.md R10, spec/92_eei_decisions.md "Open parameters in one place"). -/

namespace Sys2Proof

/-- `ADC_TIE`: what `round_adc` does exactly half way between two integers (00_scope.md R10, R12). -/
inductive AdcTie where
  | halfUp
  | halfAway
  | halfEven
  deriving DecidableEq, Repr

namespace Config

/-- `RESET_CFG`: "OPEN", any 16-bit value (10_state.md R36). DESIGN CHOICE (notes/assumptions/3): a
constant without a body, so no proof can lean on its value. -/
opaque resetCfg : Word

/-- `RESET_CAL`: "OPEN", any 16-bit value (10_state.md R36). DESIGN CHOICE (notes/assumptions/3). -/
opaque resetCal : Word

/-- `io_ok` of draw number `n`, once no prescribed draw is left (60_exceptions.md R220). DESIGN CHOICE
(notes/assumptions/6): a free value. -/
opaque ioOk : Nat → Bool

/-- `fail_write_lands` of draw number `n`, once no prescribed draw is left (60_exceptions.md R224).
DESIGN CHOICE (notes/assumptions/6): a free value. -/
opaque failWriteLands : Nat → Bool

end Config

end Sys2Proof
end

