-- ==== Sys2Proof/Syntax.lean ====
section
/-! DEFINITION. The instructions, one constructor per row of spec/opcode_table.json, and the closed
enumerations of their operands (spec/30_encoding.md R80 to R95). -/

namespace Sys2Proof

/-- `RegisterAddress`, the closed enumeration of the six registers (30_encoding.md R89). -/
inductive RegisterAddress where
  | configuration
  | shuntVoltage
  | busVoltage
  | power
  | current
  | calibration
  deriving DecidableEq, Repr

/-- `BusVoltageRange` (30_encoding.md R90). -/
inductive BusVoltageRange where
  | range16V
  | range32V
  deriving DecidableEq, Repr

/-- `Gain`: plus or minus 1, 2, 4, 8 (30_encoding.md R90). -/
inductive Gain where
  | gain1
  | gain2
  | gain4
  | gain8
  deriving DecidableEq, Repr

/-- `AdcSetting`, used for both ADCs (30_encoding.md R91). -/
inductive AdcSetting where
  | adc9Bit
  | adc10Bit
  | adc11Bit
  | adc12Bit
  | adcAvg2
  | adcAvg4
  | adcAvg8
  | adcAvg16
  | adcAvg32
  | adcAvg64
  | adcAvg128
  deriving DecidableEq, Repr

/-- `DeviceAddress`: four bus addresses and no other (30_encoding.md R92). -/
inductive DeviceAddress where
  | dev40
  | dev41
  | dev44
  | dev45
  deriving DecidableEq, Repr

/-- The twelve ways the opcode table splits a register address: the six registers, and the six mask
rows of the unmapped range 6 to 255 with the address bits their mask leaves free (30_encoding.md R94). -/
inductive AddrRow where
  | named (r : RegisterAddress)
  | unmapped6 (a : BitVec 1)   -- 6 to 7
  | unmapped8 (a : BitVec 3)   -- 8 to 15
  | unmapped16 (a : BitVec 4)   -- 16 to 31
  | unmapped32 (a : BitVec 5)   -- 32 to 63
  | unmapped64 (a : BitVec 6)   -- 64 to 127
  | unmapped128 (a : BitVec 7)   -- 128 to 255
  deriving DecidableEq, Repr

/-- The instructions. Format P (30_encoding.md R80): `wr…` is WR, `rdu…` is RDU, `rds…` is RDS, each
at one of the twelve address rows; `a` holds the address bits the row leaves free and `data` the u16
of a write (a read's `data` field is ignored, decision D28). Format S (R84): `init` with its two
rational side operands and four raw codes, and the four measurements. -/
inductive Instr where
  | wrConfiguration (data : Word)
  | wrShuntVoltage (data : Word)
  | wrBusVoltage (data : Word)
  | wrPower (data : Word)
  | wrCurrent (data : Word)
  | wrCalibration (data : Word)
  | wrUnmapped6 (a : BitVec 1) (data : Word)
  | wrUnmapped8 (a : BitVec 3) (data : Word)
  | wrUnmapped16 (a : BitVec 4) (data : Word)
  | wrUnmapped32 (a : BitVec 5) (data : Word)
  | wrUnmapped64 (a : BitVec 6) (data : Word)
  | wrUnmapped128 (a : BitVec 7) (data : Word)
  | rduConfiguration
  | rduShuntVoltage
  | rduBusVoltage
  | rduPower
  | rduCurrent
  | rduCalibration
  | rduUnmapped6 (a : BitVec 1)
  | rduUnmapped8 (a : BitVec 3)
  | rduUnmapped16 (a : BitVec 4)
  | rduUnmapped32 (a : BitVec 5)
  | rduUnmapped64 (a : BitVec 6)
  | rduUnmapped128 (a : BitVec 7)
  | rdsConfiguration
  | rdsShuntVoltage
  | rdsBusVoltage
  | rdsPower
  | rdsCurrent
  | rdsCalibration
  | rdsUnmapped6 (a : BitVec 1)
  | rdsUnmapped8 (a : BitVec 3)
  | rdsUnmapped16 (a : BitVec 4)
  | rdsUnmapped32 (a : BitVec 5)
  | rdsUnmapped64 (a : BitVec 6)
  | rdsUnmapped128 (a : BitVec 7)
  | init (rsh imax : Rat) (range : BitVec 1) (gain : BitVec 2) (badc sadc : BitVec 4)
  | getsv
  | getbv
  | geti
  | getp
  deriving DecidableEq, Repr

/-- A command as a caller hands it over: a format P word, or a format S word with the two rational
side operands `Rsh` and `Imax`, which only INIT uses (30_encoding.md R80, R84). -/
inductive Command where
  | port (w : PortWord)
  | seq (w : SeqWord) (rsh imax : Rat)
  deriving DecidableEq, Repr

end Sys2Proof
end

