-- ==== Sys2Proof/WellFormed.lean ====
section
/-! DEFINITION. Which instructions are well formed: the operand types of spec/42_sequencer.md R153
(`Rsh > 0`, `Imax > 0`, ADC codes of the closed enumeration). A port command has no ill-formed operand
(spec/41_register_port.md R131 to R133: every address and every u16 is admitted). -/

namespace Sys2Proof

/-- The codes of `AdcSetting`: 0 to 3 and 9 to 15; 4 to 8 are no members (30_encoding.md R91). -/
def adcCodeAdmitted (c : BitVec 4) : Bool :=
  c.toNat ≤ 3 || 9 ≤ c.toNat

/-- The operand check of INIT (42_sequencer.md R153, 60_exceptions.md R226 `BadOperand`). -/
def initOperandsAdmitted (rsh imax : Rat) (badc sadc : BitVec 4) : Bool :=
  decide (0 < rsh) && decide (0 < imax) && adcCodeAdmitted badc && adcCodeAdmitted sadc

/-- Well-formedness, constructor by constructor. -/
def Instr.wellFormed : Instr → Bool
  | .wrConfiguration _ => true
  | .wrShuntVoltage _ => true
  | .wrBusVoltage _ => true
  | .wrPower _ => true
  | .wrCurrent _ => true
  | .wrCalibration _ => true
  | .wrUnmapped6 _ _ => true
  | .wrUnmapped8 _ _ => true
  | .wrUnmapped16 _ _ => true
  | .wrUnmapped32 _ _ => true
  | .wrUnmapped64 _ _ => true
  | .wrUnmapped128 _ _ => true
  | .rduConfiguration => true
  | .rduShuntVoltage => true
  | .rduBusVoltage => true
  | .rduPower => true
  | .rduCurrent => true
  | .rduCalibration => true
  | .rduUnmapped6 _ => true
  | .rduUnmapped8 _ => true
  | .rduUnmapped16 _ => true
  | .rduUnmapped32 _ => true
  | .rduUnmapped64 _ => true
  | .rduUnmapped128 _ => true
  | .rdsConfiguration => true
  | .rdsShuntVoltage => true
  | .rdsBusVoltage => true
  | .rdsPower => true
  | .rdsCurrent => true
  | .rdsCalibration => true
  | .rdsUnmapped6 _ => true
  | .rdsUnmapped8 _ => true
  | .rdsUnmapped16 _ => true
  | .rdsUnmapped32 _ => true
  | .rdsUnmapped64 _ => true
  | .rdsUnmapped128 _ => true
  | .init rsh imax _ _ badc sadc => initOperandsAdmitted rsh imax badc sadc
  | .getsv => true
  | .getbv => true
  | .geti => true
  | .getp => true

end Sys2Proof
end

