-- ==== Sys2Proof/Decode.lean ====
section
/-! DEFINITION. The code maps of the enumerations, the decoder (total; it rejects by name), and after
it the encoder, both from the bit tables of spec/30_encoding.md. -/

namespace Sys2Proof

/-! ### Enumeration codes (30_encoding.md R89 to R92, 40_config_codec.md R113) -/

/-- `regAddr` (R89, R113). -/
def RegisterAddress.code : RegisterAddress → Addr
  | .configuration => 0
  | .shuntVoltage => 1
  | .busVoltage => 2
  | .power => 3
  | .current => 4
  | .calibration => 5

/-- `rangeCode` (R90, R113). -/
def BusVoltageRange.code : BusVoltageRange → BitVec 1
  | .range16V => 0
  | .range32V => 1

/-- The range a code names; every one-bit code is a member (40_config_codec.md R111). -/
def BusVoltageRange.ofCode (c : BitVec 1) : BusVoltageRange :=
  if c = 0 then .range16V else .range32V

/-- `gainCode` (R90, R113). -/
def Gain.code : Gain → BitVec 2
  | .gain1 => 0
  | .gain2 => 1
  | .gain4 => 2
  | .gain8 => 3

/-- The gain a code names; every two-bit code is a member (40_config_codec.md R111). -/
def Gain.ofCode (c : BitVec 2) : Gain :=
  if c = 0 then .gain1 else if c = 1 then .gain2 else if c = 2 then .gain4 else .gain8

/-- `adcCode` (R91, R113). -/
def AdcSetting.code : AdcSetting → BitVec 4
  | .adc9Bit => 0
  | .adc10Bit => 1
  | .adc11Bit => 2
  | .adc12Bit => 3
  | .adcAvg2 => 9
  | .adcAvg4 => 10
  | .adcAvg8 => 11
  | .adcAvg16 => 12
  | .adcAvg32 => 13
  | .adcAvg64 => 14
  | .adcAvg128 => 15

/-- `AdcName` of 40_config_codec.md R111, with `none` for `reserved` (codes 4 to 8). -/
def AdcSetting.ofCode (c : BitVec 4) : Option AdcSetting :=
  match c.toNat with
  | 0 => some .adc9Bit
  | 1 => some .adc10Bit
  | 2 => some .adc11Bit
  | 3 => some .adc12Bit
  | 9 => some .adcAvg2
  | 10 => some .adcAvg4
  | 11 => some .adcAvg8
  | 12 => some .adcAvg16
  | 13 => some .adcAvg32
  | 14 => some .adcAvg64
  | 15 => some .adcAvg128
  | _ => none

/-- `devAddr` (R92, R113). -/
def DeviceAddress.code : DeviceAddress → BitVec 7
  | .dev40 => 0x40
  | .dev41 => 0x41
  | .dev44 => 0x44
  | .dev45 => 0x45

/-- The device a 7-bit bus address names: "no other values accepted by the address enumeration"
(20_memory.md R51, 30_encoding.md R92). -/
def DeviceAddress.ofCode (c : BitVec 7) : Option DeviceAddress :=
  if c = 0x40 then some .dev40
  else if c = 0x41 then some .dev41
  else if c = 0x44 then some .dev44
  else if c = 0x45 then some .dev45
  else none

/-! ### Register addresses and the opcode table's address rows (30_encoding.md R94) -/

/-- The register address a row and its free bits stand for. -/
def AddrRow.addr : AddrRow → Addr
  | .named r => r.code
  | .unmapped6 a => 0b0000011#7 ++ a
  | .unmapped8 a => 0b00001#5 ++ a
  | .unmapped16 a => 0b0001#4 ++ a
  | .unmapped32 a => 0b001#3 ++ a
  | .unmapped64 a => 0b01#2 ++ a
  | .unmapped128 a => 0b1#1 ++ a

/-- The row of a register address: the place of its highest set bit picks an unmapped row, and
addresses 0 to 7 are the six registers and the row 6 to 7. -/
def AddrRow.ofAddr (a : Addr) : AddrRow :=
  if a.getLsbD 7 then .unmapped128 (a.extractLsb' 0 7)
  else if a.getLsbD 6 then .unmapped64 (a.extractLsb' 0 6)
  else if a.getLsbD 5 then .unmapped32 (a.extractLsb' 0 5)
  else if a.getLsbD 4 then .unmapped16 (a.extractLsb' 0 4)
  else if a.getLsbD 3 then .unmapped8 (a.extractLsb' 0 3)
  else match a.toNat with
    | 0 => .named .configuration
    | 1 => .named .shuntVoltage
    | 2 => .named .busVoltage
    | 3 => .named .power
    | 4 => .named .current
    | 5 => .named .calibration
    | _ => .unmapped6 (a.extractLsb' 0 1)

/-- The WR instruction of an address row. -/
def Instr.ofWr : AddrRow → Word → Instr
  | .named .configuration, data => .wrConfiguration data
  | .named .shuntVoltage, data => .wrShuntVoltage data
  | .named .busVoltage, data => .wrBusVoltage data
  | .named .power, data => .wrPower data
  | .named .current, data => .wrCurrent data
  | .named .calibration, data => .wrCalibration data
  | .unmapped6 a, data => .wrUnmapped6 a data
  | .unmapped8 a, data => .wrUnmapped8 a data
  | .unmapped16 a, data => .wrUnmapped16 a data
  | .unmapped32 a, data => .wrUnmapped32 a data
  | .unmapped64 a, data => .wrUnmapped64 a data
  | .unmapped128 a, data => .wrUnmapped128 a data

/-- The RDU instruction of an address row. -/
def Instr.ofRdu : AddrRow → Instr
  | .named .configuration => .rduConfiguration
  | .named .shuntVoltage => .rduShuntVoltage
  | .named .busVoltage => .rduBusVoltage
  | .named .power => .rduPower
  | .named .current => .rduCurrent
  | .named .calibration => .rduCalibration
  | .unmapped6 a => .rduUnmapped6 a
  | .unmapped8 a => .rduUnmapped8 a
  | .unmapped16 a => .rduUnmapped16 a
  | .unmapped32 a => .rduUnmapped32 a
  | .unmapped64 a => .rduUnmapped64 a
  | .unmapped128 a => .rduUnmapped128 a

/-- The RDS instruction of an address row. -/
def Instr.ofRds : AddrRow → Instr
  | .named .configuration => .rdsConfiguration
  | .named .shuntVoltage => .rdsShuntVoltage
  | .named .busVoltage => .rdsBusVoltage
  | .named .power => .rdsPower
  | .named .current => .rdsCurrent
  | .named .calibration => .rdsCalibration
  | .unmapped6 a => .rdsUnmapped6 a
  | .unmapped8 a => .rdsUnmapped8 a
  | .unmapped16 a => .rdsUnmapped16 a
  | .unmapped32 a => .rdsUnmapped32 a
  | .unmapped64 a => .rdsUnmapped64 a
  | .unmapped128 a => .rdsUnmapped128 a

/-! ### The decoder -/

/-- Why a word is no instruction: the codes 30_encoding.md R95 reserves. -/
inductive DecodeError where
  | reservedOp
  | reservedCmd
  deriving DecidableEq, Repr

/-- Format P (30_encoding.md R80): `op` 25:24, `addr` 23:16, `data` 15:0; `op = 11` is reserved. -/
def decodePort (w : PortWord) : Except DecodeError Instr :=
  let row := AddrRow.ofAddr (w.extractLsb' 16 8)
  let data := w.extractLsb' 0 16
  match (w.extractLsb' 24 2).toNat with
  | 0 => .ok (Instr.ofWr row data)
  | 1 => .ok (Instr.ofRdu row)
  | 2 => .ok (Instr.ofRds row)
  | _ => .error .reservedOp

/-- Format S (30_encoding.md R84): `cmd` 13:11, `range` 10, `gain` 9:8, `badc` 7:4, `sadc` 3:0; `cmd`
5, 6 and 7 are reserved. The fields of a measurement command are ignored (decision D28). -/
def decodeSeq (w : SeqWord) (rsh imax : Rat) : Except DecodeError Instr :=
  match (w.extractLsb' 11 3).toNat with
  | 0 => .ok (.init rsh imax (w.extractLsb' 10 1) (w.extractLsb' 8 2) (w.extractLsb' 4 4) (w.extractLsb' 0 4))
  | 1 => .ok .getsv
  | 2 => .ok .getbv
  | 3 => .ok .geti
  | 4 => .ok .getp
  | _ => .error .reservedCmd

/-- The decoder: total on every command, rejecting by name. -/
def decode : Command → Except DecodeError Instr
  | .port w => decodePort w
  | .seq w rsh imax => decodeSeq w rsh imax

/-! ### The encoder -/

/-- A format P word from its fields (30_encoding.md R80). -/
def portWord (op : BitVec 2) (row : AddrRow) (data : Word) : Command :=
  .port (op ++ row.addr ++ data)

/-- A format S word from its fields (30_encoding.md R84). -/
def seqWord (cmd : BitVec 3) (range : BitVec 1) (gain : BitVec 2) (badc sadc : BitVec 4) : SeqWord :=
  cmd ++ range ++ gain ++ badc ++ sadc

/-- The words of an instruction, ignored fields at their canonical value 0 (R80, R84, decision D28).
A measurement's side operands are unused and written 0. -/
def encode : Instr → Command
  | .wrConfiguration data => portWord 0 (.named .configuration) data
  | .wrShuntVoltage data => portWord 0 (.named .shuntVoltage) data
  | .wrBusVoltage data => portWord 0 (.named .busVoltage) data
  | .wrPower data => portWord 0 (.named .power) data
  | .wrCurrent data => portWord 0 (.named .current) data
  | .wrCalibration data => portWord 0 (.named .calibration) data
  | .wrUnmapped6 a data => portWord 0 (.unmapped6 a) data
  | .wrUnmapped8 a data => portWord 0 (.unmapped8 a) data
  | .wrUnmapped16 a data => portWord 0 (.unmapped16 a) data
  | .wrUnmapped32 a data => portWord 0 (.unmapped32 a) data
  | .wrUnmapped64 a data => portWord 0 (.unmapped64 a) data
  | .wrUnmapped128 a data => portWord 0 (.unmapped128 a) data
  | .rduConfiguration => portWord 1 (.named .configuration) 0
  | .rduShuntVoltage => portWord 1 (.named .shuntVoltage) 0
  | .rduBusVoltage => portWord 1 (.named .busVoltage) 0
  | .rduPower => portWord 1 (.named .power) 0
  | .rduCurrent => portWord 1 (.named .current) 0
  | .rduCalibration => portWord 1 (.named .calibration) 0
  | .rduUnmapped6 a => portWord 1 (.unmapped6 a) 0
  | .rduUnmapped8 a => portWord 1 (.unmapped8 a) 0
  | .rduUnmapped16 a => portWord 1 (.unmapped16 a) 0
  | .rduUnmapped32 a => portWord 1 (.unmapped32 a) 0
  | .rduUnmapped64 a => portWord 1 (.unmapped64 a) 0
  | .rduUnmapped128 a => portWord 1 (.unmapped128 a) 0
  | .rdsConfiguration => portWord 2 (.named .configuration) 0
  | .rdsShuntVoltage => portWord 2 (.named .shuntVoltage) 0
  | .rdsBusVoltage => portWord 2 (.named .busVoltage) 0
  | .rdsPower => portWord 2 (.named .power) 0
  | .rdsCurrent => portWord 2 (.named .current) 0
  | .rdsCalibration => portWord 2 (.named .calibration) 0
  | .rdsUnmapped6 a => portWord 2 (.unmapped6 a) 0
  | .rdsUnmapped8 a => portWord 2 (.unmapped8 a) 0
  | .rdsUnmapped16 a => portWord 2 (.unmapped16 a) 0
  | .rdsUnmapped32 a => portWord 2 (.unmapped32 a) 0
  | .rdsUnmapped64 a => portWord 2 (.unmapped64 a) 0
  | .rdsUnmapped128 a => portWord 2 (.unmapped128 a) 0
  | .init rsh imax range gain badc sadc => .seq (seqWord 0 range gain badc sadc) rsh imax
  | .getsv => .seq (seqWord 1 0 0 0 0) 0 0
  | .getbv => .seq (seqWord 2 0 0 0 0) 0 0
  | .geti => .seq (seqWord 3 0 0 0 0) 0 0
  | .getp => .seq (seqWord 4 0 0 0 0) 0 0

/-! ### The opcode table's words -/

/-- The side operands a table word stands with, which carries no bits for them: those of Scenario A,
`Rsh = 1/10` ohm and `Imax = 3` amperes (95_test_vectors.md E3). DESIGN CHOICE (notes/assumptions/10). -/
def tableRsh : Rat := { num := 1, den := 10 }

/-- See `tableRsh`. -/
def tableImax : Rat := 3

/-- The command of a table word. The two formats have 26 and 14 bits, four and two whole bytes: up to
16 bits is format S, more is format P (notes/assumptions/11). -/
def tableCommand (nbits w : Nat) : Command :=
  if nbits ≤ 16 then .seq (BitVec.ofNat 14 w) tableRsh tableImax else .port (BitVec.ofNat 26 w)

/-- No bit of a table word lies outside its format's fixed length (30_encoding.md R83). -/
def tableWordFits (nbits w : Nat) : Bool :=
  if nbits ≤ 16 then w < 2 ^ 14 else w < 2 ^ 26

/-- The instruction the decoder reads from a word numbered as spec/opcode_table.json numbers it. -/
def decodeTableWord (nbits w : Nat) : Option Instr :=
  if tableWordFits nbits w then
    match decode (tableCommand nbits w) with
    | .ok i => some i
    | .error _ => none
  else none

end Sys2Proof
end

