-- ==== Sys2Proof/Machine/State.lean ====
section
/-! DEFINITION. The machine's state (spec/10_state.md R20 to R36), its inputs and outputs
(spec/00_scope.md R7, R9), the reasons a step can stop, and the state after reset. -/

namespace Sys2Proof.Machine

/-- `CalibrationState`, "derived, computed once at construction" (10_state.md R32). -/
structure CalState where
  /-- `shuntResistanceOhms`, ohms -/
  rsh : Rat
  /-- `currentLsbAmps`, amperes -/
  lsbI : Rat
  /-- `calibrationRegisterValue`, the value the sequencer sent -/
  calVal : Word
  deriving DecidableEq, Repr

/-- `phase`, the sequencer's control state (10_state.md R31). CalibrationState "is defined only in
phases CFG_WRITTEN and READY" (R32), so those two carry it (notes/assumptions/9). -/
inductive Phase where
  /-- no INIT has been started since reset -/
  | uninit
  /-- inside INIT, between its two writes; the caller is blocked -/
  | cfgWritten (c : CalState)
  /-- the last INIT completed -/
  | ready (c : CalState)
  /-- the last INIT ended in IOFailure -/
  | failed
  deriving DecidableEq, Repr

/-- What a port is attached to: the register block itself, or a transport at a device address
(00_scope.md R8, 20_memory.md R51). -/
inductive Port where
  | direct
  | transport (dev : DeviceAddress)
  deriving DecidableEq, Repr

/-- The parameters of one machine, fixed for its life (10_state.md R33, 00_scope.md R10). -/
structure Params where
  adcTie : AdcTie
  port : Port
  resetCfg : Word
  resetCal : Word
  deriving DecidableEq, Repr

/-- The environment's draw for one transport transaction: `io_ok` (60_exceptions.md R220), and
`fail_write_lands`, used by a failed write only (R224). -/
structure Draw where
  ioOk : Bool
  failWriteLands : Bool
  deriving DecidableEq, Repr

/-- The three operations of a port (41_register_port.md R130). -/
inductive PortOp where
  | wr
  | rdu
  | rds
  deriving DecidableEq, Repr

/-- `IOFailure(op, a)`, the one error (60_exceptions.md R220, 41_register_port.md R131, R132). -/
structure IOFailure where
  op : PortOp
  addr : Addr
  deriving DecidableEq, Repr

/-- What a command returns to its caller (30_encoding.md R81, 42_sequencer.md R155). -/
inductive Response where
  /-- no answer: no command has answered yet, or the INIT in progress has not (notes/assumptions/7) -/
  | idle
  /-- WR and INIT return nothing -/
  | done
  /-- RDU: the pattern as an integer 0 to 65535 -/
  | unsigned (n : Nat)
  /-- RDS: the pattern as an integer -32768 to 32767 -/
  | signed (z : Int)
  /-- a measurement's triple `(code, weight, value)` -/
  | measured (code : Int) (weight value : Rat)
  /-- the failure, in place of a result -/
  | ioFailure (e : IOFailure)
  deriving DecidableEq, Repr

/-- What is handed over at the transport boundary, format W (30_encoding.md R82). -/
inductive Transfer where
  | write (offset : Addr) (bytes : List Byte)
  | read (offset : Addr) (length : Nat)
  deriving DecidableEq, Repr

/-- One transaction that was issued and what came back: `none` is the I/O error, `some []` a write
that succeeded, `some [hi, lo]` the two bytes of a read (30_encoding.md R82). -/
structure Txn where
  transfer : Transfer
  answer : Option (List Byte)
  deriving DecidableEq, Repr

/-- What happens next at the machine's outside: a move of the caller or of the environment. -/
inductive Move where
  /-- the caller issues a command -/
  | cmd (c : Command)
  /-- the caller hands a byte transfer to the port (30_encoding.md R82) -/
  | transfer (t : Transfer)
  /-- ENV: the environment sets the analog inputs, in volts (30_encoding.md R97) -/
  | env (vsh vbus : Rat)
  /-- two callers issue commands without serialising them (20_memory.md R63) -/
  | clash (a b : Command)
  /-- a new register block comes into existence (70_reset_and_hazards.md R250) -/
  | resetBlock
  /-- a new sequencer comes into existence (70_reset_and_hazards.md R250) -/
  | resetSequencer
  /-- nobody but the sequencer acts: it issues the transaction it still has to issue
  (00_scope.md R7; notes/assumptions/1) -/
  | proceed
  deriving DecidableEq, Repr

/-- Nothing in the spec halts the machine: the register block "raises nothing" (60_exceptions.md R222)
and an I/O failure ends one command, which is a next state (R229). So there is no fault. -/
inductive Fault where
  deriving DecidableEq, Repr

/-- The commands and inputs the spec gives no meaning (60_exceptions.md R226), and the name for an
instruction that has no meaning in the model yet. -/
inductive Refusal where
  /-- raised by `exec` for an instruction not modelled; safe -/
  | notModelled (mnemonic : String)
  /-- raised by `step` on a reserved `op` or `cmd` code; safe -/
  | reservedEncoding (e : DecodeError)
  /-- raised by INIT on operands outside their types, and by binding a port to a device address
  outside the four; safe -/
  | badOperand
  /-- raised by a measurement command when `phase` is not READY; safe -/
  | notReady
  /-- raised by a byte transfer of other than two data bytes; safe -/
  | badLength
  /-- raised by a read of a derived register when an analog input is outside its domain; safe -/
  | outOfDomain
  /-- raised by `step` when two callers use one port without serialisation; safe -/
  | concurrentUse
  deriving DecidableEq, Repr

/-- What a step answers. -/
abbrev Result (σ : Type) := Host.Outcome σ Fault Refusal

/-- The state: what the spec gives the machine (`cfg`, `cal`, `phase`), its fixed parameters, the
inputs it is given and the outputs it has produced. -/
structure State where
  /-- CFG, the stored CONFIGURATION register (10_state.md R21) -/
  cfg : Word
  /-- CAL, the stored CALIBRATION register (10_state.md R22) -/
  cal : Word
  /-- the sequencer's phase and CalibrationState (10_state.md R31, R32) -/
  phase : Phase
  /-- the parameters; no step changes them (10_state.md R33) -/
  params : Params
  /-- the shunt voltage now present, volts (10_state.md R28) -/
  vsh : Rat
  /-- the bus voltage now present, volts (10_state.md R28) -/
  vbus : Rat
  /-- the environment's coming draws (60_exceptions.md R220, R224) -/
  draws : List Draw
  /-- how many draws have been made: the model's own counter (notes/assumptions/6) -/
  drawn : Nat
  /-- what the caller and the environment do next (notes/assumptions/2) -/
  script : List Move
  /-- what the last command returned (notes/assumptions/7) -/
  resp : Response
  /-- the transactions the last command issued, oldest first (notes/assumptions/7) -/
  bus : List Txn
  deriving DecidableEq, Repr

/-- The machine with parameters `p` as it comes into existence (10_state.md R36,
70_reset_and_hazards.md R250): `CFG = RESET_CFG`, `CAL = RESET_CAL`, `phase = UNINIT`, no
CalibrationState. The inputs and outputs at reset are DESIGN CHOICEs (notes/assumptions/2, 4, 6, 7). -/
def State.resetWith (p : Params) : State where
  cfg := p.resetCfg
  cal := p.resetCal
  phase := .uninit
  params := p
  vsh := 0
  vbus := 0
  draws := []
  drawn := 0
  script := []
  resp := .idle
  bus := []

/-- The parameters of `State.reset`: `ADC_TIE` at the spec's default (00_scope.md R10), the direct
attachment (DESIGN CHOICE, notes/assumptions/5), the reset patterns open (notes/assumptions/3). -/
def Params.initial : Params where
  adcTie := .halfUp
  port := .direct
  resetCfg := Config.resetCfg
  resetCal := Config.resetCal

/-- The machine right after reset. -/
def State.reset : State := State.resetWith Params.initial

/-! ### One-field updates -/

/-- Store into CFG. -/
def State.setCfg (s : State) (v : Word) : State := { s with cfg := v }

/-- Store into CAL. -/
def State.setCal (s : State) (v : Word) : State := { s with cal := v }

/-- `phase <- P`. -/
def State.setPhase (s : State) (p : Phase) : State := { s with phase := p }

/-- Present new analog inputs. -/
def State.setInputs (s : State) (vsh vbus : Rat) : State := { s with vsh := vsh, vbus := vbus }

/-- What remains of the script. -/
def State.setScript (s : State) (ms : List Move) : State := { s with script := ms }

/-- One draw is used up. -/
def State.useDraw (s : State) : State := { s with draws := s.draws.tail, drawn := s.drawn + 1 }

/-- The result a command hands to its caller. -/
def State.answer (s : State) (r : Response) : State := { s with resp := r }

/-- A transaction has been issued. -/
def State.addTxn (s : State) (t : Txn) : State := { s with bus := s.bus ++ [t] }

/-- A command begins: it has issued nothing yet. -/
def State.begin (s : State) : State := { s with bus := [] }

end Sys2Proof.Machine
end

