-- ==== Sys2Proof/Machine/Operands.lean ====
section
/-! DEFINITION. The arithmetic of spec/00_scope.md R12, over exact integers and rationals, and the
bytes of a 16-bit word on the wire (spec/20_memory.md R54). -/

namespace Sys2Proof.Machine

/-- `low16(z) = z mod 65536`, a pattern (00_scope.md R12). -/
def low16 (z : Int) : Word := BitVec.ofInt 16 z

/-- `sext_16(u)`: the pattern read in two's complement (00_scope.md R12). -/
def sext16 (u : Word) : Int := if u.toNat < 32768 then u.toNat else (u.toNat : Int) - 65536

/-- `zext_16(u) = u` (00_scope.md R12). -/
def zext16 (u : Word) : Nat := u.toNat

/-- `fdiv(a, b) = floor(a / b)`, toward minus infinity (00_scope.md R12, 43_scaling_engine.md R205). -/
def fdiv (a b : Int) : Int := Int.fdiv a b

/-- `asr(z, n) = fdiv(z, 2^n)` (00_scope.md R12). -/
def asr (z : Int) (n : Nat) : Int := fdiv z (2 ^ n)

/-- `shl(z, n) = z * 2^n` (00_scope.md R12). -/
def shl (z : Int) (n : Nat) : Int := z * 2 ^ n

/-- `lsr16(u, n) = floor(u / 2^n)`, a logical shift (00_scope.md R12). -/
def lsr16 (u : Word) (n : Nat) : Nat := u.toNat / 2 ^ n

/-- `wrap32(z)`: the i32 congruent to `z` modulo 2^32 (00_scope.md R12). -/
def wrap32 (z : Int) : Int := (z + 2 ^ 31) % 2 ^ 32 - 2 ^ 31

/-- `z` is an i32 (00_scope.md R12). -/
def isI32 (z : Int) : Bool := decide (-2 ^ 31 ≤ z) && decide (z ≤ 2 ^ 31 - 1)

/-- `round_adc(q)`: the nearest integer; exactly half way, `ADC_TIE` decides (00_scope.md R12). -/
def roundAdc (tie : AdcTie) (q : Rat) : Int :=
  match tie with
  | .halfUp => (q + 1 / 2).floor
  | .halfAway => if 0 ≤ q then (q + 1 / 2).floor else -(-q + 1 / 2).floor
  | .halfEven =>
    if q - q.floor < 1 / 2 then q.floor
    else if 1 / 2 < q - q.floor then q.floor + 1
    else if q.floor % 2 = 0 then q.floor else q.floor + 1

/-- The more significant byte, sent first (20_memory.md R54). -/
def hiByte (v : Word) : Byte := v.extractLsb' 8 8

/-- The less significant byte, sent second (20_memory.md R54). -/
def loByte (v : Word) : Byte := v.extractLsb' 0 8

/-- The data bytes of a word, in order on the wire (20_memory.md R54, 30_encoding.md R82). -/
def wireBytes (v : Word) : List Byte := [hiByte v, loByte v]

/-- "composes high<<8 | low": the word of two received bytes (20_memory.md R54, 30_encoding.md R93 b). -/
def ofWire (hi lo : Byte) : Word := hi ++ lo

end Sys2Proof.Machine
end

