-- ==== Sys2Proof/Machine/Codec.lean ====
section
/-! DEFINITION. The configuration word: CFGPACK and CFGDEC (spec/40_config_codec.md R110, R111), over
format C (spec/30_encoding.md R85). -/

namespace Sys2Proof.Machine

/-- `MODE_FIXED` (00_scope.md R10): "fixed continuous-mode mode bits (value 0x7)". -/
def modeFixed : BitVec 3 := 7

/-- `CFGPACK(range, gain, badc, sadc)` (40_config_codec.md R110). -/
def cfgPack (range : BusVoltageRange) (gain : Gain) (badc sadc : AdcSetting) : Word :=
  (range.code.setWidth 16 <<< 13) ||| (gain.code.setWidth 16 <<< 11) ||| (badc.code.setWidth 16 <<< 7)
    ||| (sadc.code.setWidth 16 <<< 3) ||| modeFixed.setWidth 16

/-- What CFGDEC returns; an ADC name is `none` where the spec says `reserved` (40_config_codec.md R111). -/
structure CfgFields where
  b15 : Bool
  b14 : Bool
  range : BusVoltageRange
  gain : Gain
  badc : Option AdcSetting
  sadc : Option AdcSetting
  mode : BitVec 3
  modeOk : Bool
  deriving DecidableEq, Repr

/-- `CFGDEC(w)`, total over all words (40_config_codec.md R111). -/
def cfgDec (w : Word) : CfgFields where
  b15 := w.getLsbD 15
  b14 := w.getLsbD 14
  range := BusVoltageRange.ofCode (w.extractLsb' 13 1)
  gain := Gain.ofCode (w.extractLsb' 11 2)
  badc := AdcSetting.ofCode (w.extractLsb' 7 4)
  sadc := AdcSetting.ofCode (w.extractLsb' 3 4)
  mode := w.extractLsb' 0 3
  modeOk := w.extractLsb' 0 3 == modeFixed

end Sys2Proof.Machine
end

