-- ==== Sys2Proof/Machine/Flags.lean ====
section
/-! DEFINITION. The one flag, `OVF` (spec/10_state.md R34): a comparator on the shunt code, recomputed
on every read of BUS_VOLTAGE (spec/43_scaling_engine.md R190). -/

namespace Sys2Proof.Machine

/-- `OVF_THRESHOLD`: the literal 32000 (00_scope.md R10, 43_scaling_engine.md R190). -/
def ovfThreshold : Int := 32000

/-- `ovf`: set when `shuntCode` exceeds plus or minus 32000, strictly (43_scaling_engine.md R190). -/
def ovf (shuntCode : Int) : Bool := decide (ovfThreshold < shuntCode) || decide (shuntCode < -ovfThreshold)

end Sys2Proof.Machine
end

