-- ==== Sys2Proof/Machine/Datapath.lean ====
section
/-! DEFINITION. The register block's datapath: quantisers, multipliers and dividers
(spec/43_scaling_engine.md R184 to R195) and the pattern each register presents (R196 to R202). Codes
are exact integers, narrowed only where a rule says `wrap32` or `low16`. -/

namespace Sys2Proof.Machine

/-- `shuntCode = round_adc(Vsh * 100000)`, no clamp (R186). -/
def shuntCode (tie : AdcTie) (vsh : Rat) : Int := roundAdc tie (vsh * 100000)

/-- `busQ = floor(Vbus * 250)`, the bus voltage in 4 mV steps (R188). -/
def busQ (vbus : Rat) : Int := (vbus * 250).floor

/-- `busCode = shl(busQ, 3)` (R188). -/
def busCode (vbus : Rat) : Int := shl (busQ vbus) 3

/-- `curProd = wrap32(shuntCode * CAL)` (R192; the wrap is decision D9, notes/assumptions/15). -/
def curProd (sc : Int) (cal : Word) : Int := wrap32 (sc * cal.toNat)

/-- `currentCode = asr(curProd, 12)`: the full code, before truncation (R192). -/
def currentCode (sc : Int) (cal : Word) : Int := asr (curProd sc cal) 12

/-- `powProd = wrap32(currentCode * busQ)` (R194; the wrap is decision D9, notes/assumptions/15). -/
def powProd (cc bq : Int) : Int := wrap32 (cc * bq)

/-- `powerCode = fdiv(powProd, 5000)`, from the full `currentCode` (R194, 90_conflicts.md C1). -/
def powerCode (cc bq : Int) : Int := fdiv (powProd cc bq) 5000

/-- The admitted analog inputs: `shuntCode` is an i32 and `busQ` within plus or minus 2^28 (R185). -/
def inputsAdmitted (tie : AdcTie) (vsh vbus : Rat) : Bool :=
  isI32 (shuntCode tie vsh) && decide (-2 ^ 28 ≤ busQ vbus) && decide (busQ vbus ≤ 2 ^ 28 - 1)

/-! ### The codes of a state: one evaluation from one `(Vsh, Vbus, CAL)` (10_state.md R29) -/

/-- `shuntCode` now. -/
def State.shuntCode (s : State) : Int := Machine.shuntCode s.params.adcTie s.vsh

/-- `busQ` now. -/
def State.busQ (s : State) : Int := Machine.busQ s.vbus

/-- `currentCode` now. -/
def State.currentCode (s : State) : Int := Machine.currentCode s.shuntCode s.cal

/-- `powerCode` now. -/
def State.powerCode (s : State) : Int := Machine.powerCode s.currentCode s.busQ

/-- Whether the analog inputs now present are admitted (R185). -/
def State.inputsAdmitted (s : State) : Bool := Machine.inputsAdmitted s.params.adcTie s.vsh s.vbus

/-! ### Read patterns -/

/-- `x[1] = low16(shuntCode)` (R197). -/
def shuntVoltagePattern (s : State) : Word := low16 s.shuntCode

/-- `x[2] = low16(busCode) | ovf` (R198); bits 2 and 1 read 0 (10_state.md R25, decision D16). -/
def busVoltagePattern (s : State) : Word :=
  low16 (busCode s.vbus) ||| (if ovf s.shuntCode then 1 else 0)

/-- `x[3] = low16(powerCode)` (R199). -/
def powerPattern (s : State) : Word := low16 s.powerCode

/-- `x[4] = low16(currentCode)` (R200). -/
def currentPattern (s : State) : Word := low16 s.currentCode

/-- `x[a]`, the pattern the register block presents at address `a` (00_scope.md R13; R196 to R202). -/
def State.pattern (s : State) (a : Addr) : Word :=
  match a.toNat with
  | 0 => s.cfg
  | 1 => shuntVoltagePattern s
  | 2 => busVoltagePattern s
  | 3 => powerPattern s
  | 4 => currentPattern s
  | 5 => s.cal
  | _ => 0

/-- The derived registers, addresses 1 to 4 (10_state.md R20). -/
def derivedAddr (a : Addr) : Bool := decide (1 ≤ a.toNat) && decide (a.toNat ≤ 4)

end Sys2Proof.Machine
end

