-- ==== Sys2Proof/Machine/Ops.lean ====
section
/-! DEFINITION. The shared operations: register access, port transactions, taking the I/O failure, and
the shapes of a port command and of a measurement (spec/41_register_port.md, spec/60_exceptions.md). -/

namespace Sys2Proof.Machine

/-! ### The register block -/

/-- `CFG_WRITE_MASK` (00_scope.md R10). -/
def cfgWriteMask : Word := 0xBFFF

/-- `CAL_WRITE_MASK` (00_scope.md R10). -/
def calWriteMask : Word := 0xFFFE

/-- `x[a] <- v` (43_scaling_engine.md R180 to R182): CFG keeps all but bit 14, CAL all but bit 0, and
every other address accepts the write without effect. -/
def writeReg (a : Addr) (v : Word) (s : State) : State :=
  match a.toNat with
  | 0 => s.setCfg (v &&& cfgWriteMask)
  | 5 => s.setCal (v &&& calWriteMask)
  | _ => s

/-- A read of `x[a]` (R196 to R202). The datapath is defined on admitted inputs only (R185), so a
derived register is refused outside them; stored and unmapped addresses do not use it
(notes/assumptions/8). -/
def readReg (a : Addr) (s : State) : Except Refusal Word :=
  if derivedAddr a && !s.inputsAdmitted then .error .outOfDomain else .ok (s.pattern a)

/-! ### Draws (60_exceptions.md R220, R224) -/

/-- The draw the next transport transaction gets: the first prescribed one, else a free value. -/
def State.nextDraw (s : State) : Draw :=
  match s.draws with
  | d :: _ => d
  | [] => ⟨Config.ioOk s.drawn, Config.failWriteLands s.drawn⟩

/-- Whether the next transaction completes: always through a direct attachment
(41_register_port.md R136), by the draw through a transport. -/
def State.portOk (s : State) : Bool :=
  match s.params.port with
  | .direct => true
  | .transport _ => s.nextDraw.ioOk

/-- The state once the next transaction's draw is made; a direct attachment draws nothing (R136). -/
def State.afterDraw (s : State) : State :=
  match s.params.port with
  | .direct => s
  | .transport _ => s.useDraw

/-! ### Transactions -/

/-- How a transaction ends: with a value, with an I/O failure, or refused. -/
inductive Reply (α : Type) where
  | ok (a : α) (s : State)
  | failed (e : IOFailure) (s : State)
  | refused (r : Refusal)
  deriving Repr

/-- A write transaction at the transport boundary (30_encoding.md R82, 41_register_port.md R131): two
data bytes, the more significant first; any other length is refused (20_memory.md R55). A failed write
reaches the register if `fail_write_lands` (60_exceptions.md R224). -/
def wireWrite (a : Addr) (bytes : List Byte) (s : State) : Reply Unit :=
  match bytes with
  | [hi, lo] =>
    if s.portOk then
      .ok () ((writeReg a (ofWire hi lo) s.afterDraw).addTxn ⟨.write a bytes, some []⟩)
    else if s.nextDraw.failWriteLands then
      .failed ⟨.wr, a⟩ ((writeReg a (ofWire hi lo) s.afterDraw).addTxn ⟨.write a bytes, none⟩)
    else .failed ⟨.wr, a⟩ (s.afterDraw.addTxn ⟨.write a bytes, none⟩)
  | _ => .refused .badLength

/-- A read transaction at the transport boundary (30_encoding.md R82, 41_register_port.md R132): two
bytes come back and are composed big-endian. A failed read returns no value (60_exceptions.md R223). -/
def wireRead (op : PortOp) (a : Addr) (length : Nat) (s : State) : Reply Word :=
  if length = 2 then
    if s.portOk then
      match readReg a s with
      | .ok p => .ok (ofWire (hiByte p) (loByte p)) (s.afterDraw.addTxn ⟨.read a 2, some (wireBytes p)⟩)
      | .error r => .refused r
    else .failed ⟨op, a⟩ (s.afterDraw.addTxn ⟨.read a 2, none⟩)
  else .refused .badLength

/-- `MemWrite(a, 2, v)` (00_scope.md R13, 41_register_port.md R131). -/
def memWrite (a : Addr) (v : Word) (s : State) : Reply Unit := wireWrite a (wireBytes v) s

/-- `MemRead(a, 2)` for the port operation `op` (00_scope.md R13, 41_register_port.md R132). -/
def memRead (op : PortOp) (a : Addr) (s : State) : Reply Word := wireRead op a 2 s

/-! ### Taking the I/O failure (60_exceptions.md R229) -/

/-- The code number of the one error (60_exceptions.md R221). -/
def IOFailure.code (_ : IOFailure) : Nat := 1

/-- `raise IOFailure`: the command ends at once and the caller receives the failure, unchanged. Nothing
is saved: "no cause register, no saved program counter, no stack, no mode change, no mask change, no
vector" (R229), and there is no return from it (R231): the next command simply follows. -/
def raiseIOFailure (e : IOFailure) (s : State) : State := s.answer (.ioFailure e)

/-- Ends a command on its last transaction: its result on success; on a failure what the command does
to its own state, then the failure to the caller. -/
def Reply.finish {α : Type} (r : Reply α) (onFail : State → State) (k : α → State → State) : Result State :=
  match r with
  | .ok a s => .next (k a s)
  | .failed e s => .next (raiseIOFailure e (onFail s))
  | .refused r => .refused r

/-! ### The shapes of a port command (41_register_port.md R131 to R133, R135) -/

/-- `WR a, v` (R131). -/
def portWrite (a : Addr) (v : Word) (s : State) : Result State :=
  (memWrite a v s.begin).finish id (fun _ t => t.answer .done)

/-- `RDU a` (R132): the pattern as it is. -/
def portReadUnsigned (a : Addr) (s : State) : Result State :=
  (memRead .rdu a s.begin).finish id (fun p t => t.answer (.unsigned (zext16 p)))

/-- `RDS a` (R133): the same pattern in two's complement. -/
def portReadSigned (a : Addr) (s : State) : Result State :=
  (memRead .rds a s.begin).finish id (fun p t => t.answer (.signed (sext16 p)))

/-- A transfer handed to the port as bytes: of two bytes, what WR and RDU do; of any other length,
refused `BadLength` (20_memory.md R55, 60_exceptions.md R226; notes/assumptions/12). -/
def transferBytes (t : Transfer) (s : State) : Result State :=
  match t with
  | .write a bytes => (wireWrite a bytes s.begin).finish id (fun _ t => t.answer .done)
  | .read a length => (wireRead .rdu a length s.begin).finish id (fun p t => t.answer (.unsigned (zext16 p)))

/-! ### The sequencer (42_sequencer.md) -/

/-- The current LSB, `lsbI = Imax / 32768` (R150). -/
def currentLsb (imax : Rat) : Rat := imax / 32768

/-- `calFull = floor(1342.17728 / (Imax * Rsh))` (R151). -/
def calFull (rsh imax : Rat) : Int := (134217728 / 100000 / (imax * rsh)).floor

/-- `calVal = low16(calFull)` (R151; the truncation is decision D17, notes/assumptions/17). -/
def calValue (rsh imax : Rat) : Word := low16 (calFull rsh imax)

/-- The CalibrationState INIT computes from its operands (10_state.md R32, R150, R151). -/
def CalState.compute (rsh imax : Rat) : CalState := ⟨rsh, currentLsb imax, calValue rsh imax⟩

/-- INIT's first transaction (R153, R154): a new instance replaces any old one, then CONFIGURATION is
written and the phase becomes CFG_WRITTEN, or FAILED. -/
def initConfiguration (cfgWord : Word) (c : CalState) (s : State) : Reply Unit :=
  match memWrite 0 cfgWord (s.begin.setPhase .uninit) with
  | .ok _ t => .ok () (t.setPhase (.cfgWritten c))
  | .failed e t => .failed e (t.setPhase .failed)
  | .refused r => .refused r

/-- INIT's second transaction (R153, R154): CALIBRATION is written and the phase becomes READY, or
FAILED. -/
def initCalibration (c : CalState) (s : State) : Reply Unit :=
  match memWrite 5 c.calVal s with
  | .ok _ t => .ok () (t.setPhase (.ready c))
  | .failed e t => .failed e (t.setPhase .failed)
  | .refused r => .refused r

/-- INIT as the caller issues it: the step of its first transaction (00_scope.md R7, "one step per port
transaction it issues"). While INIT is in progress its caller has no answer; a failed first write ends
it, and the second is not issued (R153, decision D19). -/
def startInit (cfgWord : Word) (c : CalState) (s : State) : Result State :=
  (initConfiguration cfgWord c s).finish id (fun _ t => t.answer .idle)

/-- The step of INIT's second transaction, which ends it. -/
def continueInit (c : CalState) (s : State) : Result State :=
  (initCalibration c s).finish id (fun _ t => t.answer .done)

/-- The sequencer is inside INIT: its second transaction is still to come (10_state.md R31). -/
def State.inInit (s : State) : Bool :=
  match s.phase with
  | .cfgWritten _ => true
  | .uninit => false
  | .ready _ => false
  | .failed => false

/-- The sequencer on its own (00_scope.md R7): inside INIT it issues the second transaction, otherwise
it has none to issue and nothing changes. -/
def proceed (s : State) : Result State :=
  match s.phase with
  | .cfgWritten c => continueInit c s
  | .uninit => .next s
  | .ready _ => .next s
  | .failed => .next s

/-- A measurement's result `(code, weight, value)` with `value = code * weight` (R155). -/
def measured (code : Int) (weight : Rat) : Response := .measured code weight (code * weight)

/-- A measurement command (R155): the phase check, then exactly one read, then the scaling. -/
def runMeasurement (op : PortOp) (a : Addr) (scale : CalState → Word → Response) (s : State) : Result State :=
  match s.phase with
  | .ready c => (memRead op a s.begin).finish id (fun p t => t.answer (scale c p))
  | .uninit => .refused .notReady
  | .cfgWritten _ => .refused .notReady
  | .failed => .refused .notReady

/-! ### Reset events and binding (70_reset_and_hazards.md R250) -/

/-- A new register block: both stored registers at their reset patterns, the sequencer untouched. -/
def resetBlock (s : State) : State := (s.setCfg s.params.resetCfg).setCal s.params.resetCal

/-- A new sequencer: phase UNINIT, no CalibrationState, the register block untouched. -/
def resetSequencer (s : State) : State := s.setPhase .uninit

/-- The machine whose port is bound to a 7-bit device address: refused outside the four
(60_exceptions.md R226 `BadOperand`, 90_conflicts.md C12). -/
def bindTransport (code : BitVec 7) (p : Params) : Result State :=
  match DeviceAddress.ofCode code with
  | some d => .next (State.resetWith { p with port := .transport d })
  | none => .refused .badOperand

end Sys2Proof.Machine
end

