-- ==== Sys2Proof/Machine/PortReadSigned.lean ====
section
/-! DEFINITION. RDS, one meaning per row of the opcode table (spec/41_register_port.md R133). -/

namespace Sys2Proof.Machine

/-- RDS at address 0 (41_register_port.md R133; 43_scaling_engine.md R196). -/
def execRdsConfiguration (s : State) : Result State :=
  portReadSigned (AddrRow.named .configuration).addr s

/-- RDS at address 1 (41_register_port.md R133; 43_scaling_engine.md R197). -/
def execRdsShuntVoltage (s : State) : Result State :=
  portReadSigned (AddrRow.named .shuntVoltage).addr s

/-- RDS at address 2 (41_register_port.md R133; 43_scaling_engine.md R198). -/
def execRdsBusVoltage (s : State) : Result State :=
  portReadSigned (AddrRow.named .busVoltage).addr s

/-- RDS at address 3 (41_register_port.md R133; 43_scaling_engine.md R199). -/
def execRdsPower (s : State) : Result State :=
  portReadSigned (AddrRow.named .power).addr s

/-- RDS at address 4 (41_register_port.md R133; 43_scaling_engine.md R200). -/
def execRdsCurrent (s : State) : Result State :=
  portReadSigned (AddrRow.named .current).addr s

/-- RDS at address 5 (41_register_port.md R133; 43_scaling_engine.md R201). -/
def execRdsCalibration (s : State) : Result State :=
  portReadSigned (AddrRow.named .calibration).addr s

/-- RDS at an unmapped address, 6 to 7 (41_register_port.md R133; 43_scaling_engine.md R202). -/
def execRdsUnmapped6 (a : BitVec 1) (s : State) : Result State :=
  portReadSigned (AddrRow.unmapped6 a).addr s

/-- RDS at an unmapped address, 8 to 15 (41_register_port.md R133; 43_scaling_engine.md R202). -/
def execRdsUnmapped8 (a : BitVec 3) (s : State) : Result State :=
  portReadSigned (AddrRow.unmapped8 a).addr s

/-- RDS at an unmapped address, 16 to 31 (41_register_port.md R133; 43_scaling_engine.md R202). -/
def execRdsUnmapped16 (a : BitVec 4) (s : State) : Result State :=
  portReadSigned (AddrRow.unmapped16 a).addr s

/-- RDS at an unmapped address, 32 to 63 (41_register_port.md R133; 43_scaling_engine.md R202). -/
def execRdsUnmapped32 (a : BitVec 5) (s : State) : Result State :=
  portReadSigned (AddrRow.unmapped32 a).addr s

/-- RDS at an unmapped address, 64 to 127 (41_register_port.md R133; 43_scaling_engine.md R202). -/
def execRdsUnmapped64 (a : BitVec 6) (s : State) : Result State :=
  portReadSigned (AddrRow.unmapped64 a).addr s

/-- RDS at an unmapped address, 128 to 255 (41_register_port.md R133; 43_scaling_engine.md R202). -/
def execRdsUnmapped128 (a : BitVec 7) (s : State) : Result State :=
  portReadSigned (AddrRow.unmapped128 a).addr s

end Sys2Proof.Machine
end

