-- ==== Sys2Proof/Machine/PortReadUnsigned.lean ====
section
/-! DEFINITION. RDU, one meaning per row of the opcode table (spec/41_register_port.md R132). -/

namespace Sys2Proof.Machine

/-- RDU at address 0 (41_register_port.md R132; 43_scaling_engine.md R196). -/
def execRduConfiguration (s : State) : Result State :=
  portReadUnsigned (AddrRow.named .configuration).addr s

/-- RDU at address 1 (41_register_port.md R132; 43_scaling_engine.md R197). -/
def execRduShuntVoltage (s : State) : Result State :=
  portReadUnsigned (AddrRow.named .shuntVoltage).addr s

/-- RDU at address 2 (41_register_port.md R132; 43_scaling_engine.md R198). -/
def execRduBusVoltage (s : State) : Result State :=
  portReadUnsigned (AddrRow.named .busVoltage).addr s

/-- RDU at address 3 (41_register_port.md R132; 43_scaling_engine.md R199). -/
def execRduPower (s : State) : Result State :=
  portReadUnsigned (AddrRow.named .power).addr s

/-- RDU at address 4 (41_register_port.md R132; 43_scaling_engine.md R200). -/
def execRduCurrent (s : State) : Result State :=
  portReadUnsigned (AddrRow.named .current).addr s

/-- RDU at address 5 (41_register_port.md R132; 43_scaling_engine.md R201). -/
def execRduCalibration (s : State) : Result State :=
  portReadUnsigned (AddrRow.named .calibration).addr s

/-- RDU at an unmapped address, 6 to 7 (41_register_port.md R132; 43_scaling_engine.md R202). -/
def execRduUnmapped6 (a : BitVec 1) (s : State) : Result State :=
  portReadUnsigned (AddrRow.unmapped6 a).addr s

/-- RDU at an unmapped address, 8 to 15 (41_register_port.md R132; 43_scaling_engine.md R202). -/
def execRduUnmapped8 (a : BitVec 3) (s : State) : Result State :=
  portReadUnsigned (AddrRow.unmapped8 a).addr s

/-- RDU at an unmapped address, 16 to 31 (41_register_port.md R132; 43_scaling_engine.md R202). -/
def execRduUnmapped16 (a : BitVec 4) (s : State) : Result State :=
  portReadUnsigned (AddrRow.unmapped16 a).addr s

/-- RDU at an unmapped address, 32 to 63 (41_register_port.md R132; 43_scaling_engine.md R202). -/
def execRduUnmapped32 (a : BitVec 5) (s : State) : Result State :=
  portReadUnsigned (AddrRow.unmapped32 a).addr s

/-- RDU at an unmapped address, 64 to 127 (41_register_port.md R132; 43_scaling_engine.md R202). -/
def execRduUnmapped64 (a : BitVec 6) (s : State) : Result State :=
  portReadUnsigned (AddrRow.unmapped64 a).addr s

/-- RDU at an unmapped address, 128 to 255 (41_register_port.md R132; 43_scaling_engine.md R202). -/
def execRduUnmapped128 (a : BitVec 7) (s : State) : Result State :=
  portReadUnsigned (AddrRow.unmapped128 a).addr s

end Sys2Proof.Machine
end

