-- ==== Sys2Proof/Machine/PortWrite.lean ====
section
/-! DEFINITION. WR, one meaning per row of the opcode table (spec/41_register_port.md R131). -/

namespace Sys2Proof.Machine

/-- WR at address 0 (41_register_port.md R131; 43_scaling_engine.md R180). -/
def execWrConfiguration (data : Word) (s : State) : Result State :=
  portWrite (AddrRow.named .configuration).addr data s

/-- WR at address 1 (41_register_port.md R131; 43_scaling_engine.md R182). -/
def execWrShuntVoltage (data : Word) (s : State) : Result State :=
  portWrite (AddrRow.named .shuntVoltage).addr data s

/-- WR at address 2 (41_register_port.md R131; 43_scaling_engine.md R182). -/
def execWrBusVoltage (data : Word) (s : State) : Result State :=
  portWrite (AddrRow.named .busVoltage).addr data s

/-- WR at address 3 (41_register_port.md R131; 43_scaling_engine.md R182). -/
def execWrPower (data : Word) (s : State) : Result State :=
  portWrite (AddrRow.named .power).addr data s

/-- WR at address 4 (41_register_port.md R131; 43_scaling_engine.md R182). -/
def execWrCurrent (data : Word) (s : State) : Result State :=
  portWrite (AddrRow.named .current).addr data s

/-- WR at address 5 (41_register_port.md R131; 43_scaling_engine.md R181). -/
def execWrCalibration (data : Word) (s : State) : Result State :=
  portWrite (AddrRow.named .calibration).addr data s

/-- WR at an unmapped address, 6 to 7 (41_register_port.md R131; 43_scaling_engine.md R182). -/
def execWrUnmapped6 (a : BitVec 1) (data : Word) (s : State) : Result State :=
  portWrite (AddrRow.unmapped6 a).addr data s

/-- WR at an unmapped address, 8 to 15 (41_register_port.md R131; 43_scaling_engine.md R182). -/
def execWrUnmapped8 (a : BitVec 3) (data : Word) (s : State) : Result State :=
  portWrite (AddrRow.unmapped8 a).addr data s

/-- WR at an unmapped address, 16 to 31 (41_register_port.md R131; 43_scaling_engine.md R182). -/
def execWrUnmapped16 (a : BitVec 4) (data : Word) (s : State) : Result State :=
  portWrite (AddrRow.unmapped16 a).addr data s

/-- WR at an unmapped address, 32 to 63 (41_register_port.md R131; 43_scaling_engine.md R182). -/
def execWrUnmapped32 (a : BitVec 5) (data : Word) (s : State) : Result State :=
  portWrite (AddrRow.unmapped32 a).addr data s

/-- WR at an unmapped address, 64 to 127 (41_register_port.md R131; 43_scaling_engine.md R182). -/
def execWrUnmapped64 (a : BitVec 6) (data : Word) (s : State) : Result State :=
  portWrite (AddrRow.unmapped64 a).addr data s

/-- WR at an unmapped address, 128 to 255 (41_register_port.md R131; 43_scaling_engine.md R182). -/
def execWrUnmapped128 (a : BitVec 7) (data : Word) (s : State) : Result State :=
  portWrite (AddrRow.unmapped128 a).addr data s

end Sys2Proof.Machine
end

