-- ==== Sys2Proof/Machine/Sequencer.lean ====
section
/-! DEFINITION. The sequencer's commands INIT, GETSV, GETBV, GETI, GETP (spec/42_sequencer.md). -/

namespace Sys2Proof.Machine

/-- INIT (42_sequencer.md R153, R154, R163): the operand check, then the first of its two writes; the
sequencer issues the second in a step of its own (`proceed`). It is accepted in every phase; operands
outside their types are refused before any transaction. -/
def execInit (rsh imax : Rat) (range : BitVec 1) (gain : BitVec 2) (badc sadc : BitVec 4) (s : State) :
    Result State :=
  if 0 < rsh ∧ 0 < imax then
    match AdcSetting.ofCode badc, AdcSetting.ofCode sadc with
    | some b, some d =>
      startInit (cfgPack (BusVoltageRange.ofCode range) (Gain.ofCode gain) b d) (CalState.compute rsh imax) s
    | _, _ => .refused .badOperand
  else .refused .badOperand

/-- GETSV (42_sequencer.md R156): RDS SHUNT_VOLTAGE, times 1/100000 volt. -/
def execGetsv (s : State) : Result State :=
  runMeasurement .rds RegisterAddress.shuntVoltage.code (fun _ p => measured (sext16 p) (1 / 100000)) s

/-- GETBV (42_sequencer.md R157): RDU BUS_VOLTAGE, shifted right by 3, times 1/250 volt. -/
def execGetbv (s : State) : Result State :=
  runMeasurement .rdu RegisterAddress.busVoltage.code (fun _ p => measured (lsr16 p 3) (1 / 250)) s

/-- GETI (42_sequencer.md R158): RDS CURRENT, times `lsbI`. -/
def execGeti (s : State) : Result State :=
  runMeasurement .rds RegisterAddress.current.code (fun c p => measured (sext16 p) c.lsbI) s

/-- GETP (42_sequencer.md R159): RDU POWER, times `20 * lsbI`. -/
def execGetp (s : State) : Result State :=
  runMeasurement .rdu RegisterAddress.power.code (fun c p => measured (zext16 p) (20 * c.lsbI)) s

end Sys2Proof.Machine
end

