-- ==== Sys2Proof/Machine/Dispatch.lean ====
section
/-! DEFINITION. The dispatch: one arm per row of spec/opcode_table.json. -/

namespace Sys2Proof.Machine

def exec (i : Instr) (s : State) : Host.Outcome State Fault Refusal :=
  match i with
  | .wrConfiguration data => Sys2Proof.Machine.execWrConfiguration data s
  | .wrShuntVoltage data => Sys2Proof.Machine.execWrShuntVoltage data s
  | .wrBusVoltage data => Sys2Proof.Machine.execWrBusVoltage data s
  | .wrPower data => Sys2Proof.Machine.execWrPower data s
  | .wrCurrent data => Sys2Proof.Machine.execWrCurrent data s
  | .wrCalibration data => Sys2Proof.Machine.execWrCalibration data s
  | .wrUnmapped6 a data => Sys2Proof.Machine.execWrUnmapped6 a data s
  | .wrUnmapped8 a data => Sys2Proof.Machine.execWrUnmapped8 a data s
  | .wrUnmapped16 a data => Sys2Proof.Machine.execWrUnmapped16 a data s
  | .wrUnmapped32 a data => Sys2Proof.Machine.execWrUnmapped32 a data s
  | .wrUnmapped64 a data => Sys2Proof.Machine.execWrUnmapped64 a data s
  | .wrUnmapped128 a data => Sys2Proof.Machine.execWrUnmapped128 a data s
  | .rduConfiguration => Sys2Proof.Machine.execRduConfiguration s
  | .rduShuntVoltage => Sys2Proof.Machine.execRduShuntVoltage s
  | .rduBusVoltage => Sys2Proof.Machine.execRduBusVoltage s
  | .rduPower => Sys2Proof.Machine.execRduPower s
  | .rduCurrent => Sys2Proof.Machine.execRduCurrent s
  | .rduCalibration => Sys2Proof.Machine.execRduCalibration s
  | .rduUnmapped6 a => Sys2Proof.Machine.execRduUnmapped6 a s
  | .rduUnmapped8 a => Sys2Proof.Machine.execRduUnmapped8 a s
  | .rduUnmapped16 a => Sys2Proof.Machine.execRduUnmapped16 a s
  | .rduUnmapped32 a => Sys2Proof.Machine.execRduUnmapped32 a s
  | .rduUnmapped64 a => Sys2Proof.Machine.execRduUnmapped64 a s
  | .rduUnmapped128 a => Sys2Proof.Machine.execRduUnmapped128 a s
  | .rdsConfiguration => Sys2Proof.Machine.execRdsConfiguration s
  | .rdsShuntVoltage => Sys2Proof.Machine.execRdsShuntVoltage s
  | .rdsBusVoltage => Sys2Proof.Machine.execRdsBusVoltage s
  | .rdsPower => Sys2Proof.Machine.execRdsPower s
  | .rdsCurrent => Sys2Proof.Machine.execRdsCurrent s
  | .rdsCalibration => Sys2Proof.Machine.execRdsCalibration s
  | .rdsUnmapped6 a => Sys2Proof.Machine.execRdsUnmapped6 a s
  | .rdsUnmapped8 a => Sys2Proof.Machine.execRdsUnmapped8 a s
  | .rdsUnmapped16 a => Sys2Proof.Machine.execRdsUnmapped16 a s
  | .rdsUnmapped32 a => Sys2Proof.Machine.execRdsUnmapped32 a s
  | .rdsUnmapped64 a => Sys2Proof.Machine.execRdsUnmapped64 a s
  | .rdsUnmapped128 a => Sys2Proof.Machine.execRdsUnmapped128 a s
  | .init rsh imax range gain badc sadc => Sys2Proof.Machine.execInit rsh imax range gain badc sadc s
  | .getsv => Sys2Proof.Machine.execGetsv s
  | .getbv => Sys2Proof.Machine.execGetbv s
  | .geti => Sys2Proof.Machine.execGeti s
  | .getp => Sys2Proof.Machine.execGetp s

end Sys2Proof.Machine
end

