-- ==== Sys2Proof/Machine/Moves.lean ====
section
/-! DEFINITION. Which agent acts next, and what it does (spec/00_scope.md R7): the caller's commands and
byte transfers, the environment's moves, and the sequencer's second transaction of INIT. -/

namespace Sys2Proof.Machine

/-- A command: decoded, then executed (30_encoding.md R94, R95). -/
def runCommand (c : Command) (s : State) : Result State :=
  match decode c with
  | .ok i => exec i s
  | .error e => .refused (.reservedEncoding e)

/-- Whether a move is something the one serialised caller does next: while INIT is in progress "the
only caller is blocked inside `INIT`" (20_memory.md R63), so such a move waits. The environment is not
blocked, and a second, unserialised caller is not either. -/
def Move.byCaller : Move → Bool
  | .cmd _ => true
  | .transfer _ => true
  | .env _ _ => false
  | .clash _ _ => false
  | .resetBlock => false
  | .resetSequencer => false
  | .proceed => false

/-- One move. ENV and the reset events are the environment's, not commands (30_encoding.md R97,
70_reset_and_hazards.md R250); two unserialised callers are refused (60_exceptions.md R226). -/
def runMove (m : Move) (s : State) : Result State :=
  match m with
  | .cmd c => runCommand c s
  | .transfer t => transferBytes t s
  | .env vsh vbus => .next (s.setInputs vsh vbus)
  | .clash _ _ => .refused .concurrentUse
  | .resetBlock => .next (resetBlock s)
  | .resetSequencer => .next (resetSequencer s)
  | .proceed => proceed s

/-- The next move of the script; with none left, or one of the blocked caller, the sequencer goes on by
itself, and outside INIT the machine is idle: it "never initiates anything" (00_scope.md R7;
notes/assumptions/1, 2). -/
def runNext (s : State) : Result State :=
  match s.script with
  | [] => proceed s
  | m :: ms => if s.inInit && m.byCaller then proceed s else runMove m (s.setScript ms)

end Sys2Proof.Machine
end

