-- ==== Sys2Proof/Machine/Step.lean ====
section
/-! DEFINITION. One step: one port transaction, one move of the environment, or a refusal
(spec/00_scope.md R7, spec/92_eei_decisions.md D1). -/

namespace Sys2Proof.Machine

/-- One step: whoever acts next acts. -/
def step (s : State) : Host.Outcome State Fault Refusal := runNext s

/-- The state whose next step runs the command of a table word: the caller issues it, which it cannot
inside INIT, so there a new sequencer stands (notes/assumptions/2, 10, 11). -/
def State.withFetchWord (s : State) (nbits w : Nat) : State :=
  (if s.inInit then resetSequencer s else s).setScript (.cmd (tableCommand nbits w) :: s.script)

end Sys2Proof.Machine
end

