-- ==== Sys2Proof/Safety.lean ====
section
/-! DEFINITION. The terms claims use: what kind of access an instruction makes, when a read is defined,
the invariants of the machine, and the predicate of spec/43_scaling_engine.md R195. -/

namespace Sys2Proof

open Sys2Proof.Machine

/-! ### What an instruction asks of the port -/

/-- The access an instruction makes: WR, RDU or RDS at a register address, INIT, or a measurement with
the port operation and address of its one read (30_encoding.md R98). -/
inductive Access where
  | write (a : Addr) (v : Word)
  | readUnsigned (a : Addr)
  | readSigned (a : Addr)
  | initialise
  | measurement (op : PortOp) (a : Addr)
  deriving DecidableEq, Repr

/-- The access of each instruction, with the register address as a number: an unmapped row of the
opcode table is its lowest address plus the bits it leaves free (30_encoding.md R94). -/
def Instr.access : Instr → Access
  | .wrConfiguration v => .write 0 v
  | .wrShuntVoltage v => .write 1 v
  | .wrBusVoltage v => .write 2 v
  | .wrPower v => .write 3 v
  | .wrCurrent v => .write 4 v
  | .wrCalibration v => .write 5 v
  | .wrUnmapped6 a v => .write (BitVec.ofNat 8 (6 + a.toNat)) v
  | .wrUnmapped8 a v => .write (BitVec.ofNat 8 (8 + a.toNat)) v
  | .wrUnmapped16 a v => .write (BitVec.ofNat 8 (16 + a.toNat)) v
  | .wrUnmapped32 a v => .write (BitVec.ofNat 8 (32 + a.toNat)) v
  | .wrUnmapped64 a v => .write (BitVec.ofNat 8 (64 + a.toNat)) v
  | .wrUnmapped128 a v => .write (BitVec.ofNat 8 (128 + a.toNat)) v
  | .rduConfiguration => .readUnsigned 0
  | .rduShuntVoltage => .readUnsigned 1
  | .rduBusVoltage => .readUnsigned 2
  | .rduPower => .readUnsigned 3
  | .rduCurrent => .readUnsigned 4
  | .rduCalibration => .readUnsigned 5
  | .rduUnmapped6 a => .readUnsigned (BitVec.ofNat 8 (6 + a.toNat))
  | .rduUnmapped8 a => .readUnsigned (BitVec.ofNat 8 (8 + a.toNat))
  | .rduUnmapped16 a => .readUnsigned (BitVec.ofNat 8 (16 + a.toNat))
  | .rduUnmapped32 a => .readUnsigned (BitVec.ofNat 8 (32 + a.toNat))
  | .rduUnmapped64 a => .readUnsigned (BitVec.ofNat 8 (64 + a.toNat))
  | .rduUnmapped128 a => .readUnsigned (BitVec.ofNat 8 (128 + a.toNat))
  | .rdsConfiguration => .readSigned 0
  | .rdsShuntVoltage => .readSigned 1
  | .rdsBusVoltage => .readSigned 2
  | .rdsPower => .readSigned 3
  | .rdsCurrent => .readSigned 4
  | .rdsCalibration => .readSigned 5
  | .rdsUnmapped6 a => .readSigned (BitVec.ofNat 8 (6 + a.toNat))
  | .rdsUnmapped8 a => .readSigned (BitVec.ofNat 8 (8 + a.toNat))
  | .rdsUnmapped16 a => .readSigned (BitVec.ofNat 8 (16 + a.toNat))
  | .rdsUnmapped32 a => .readSigned (BitVec.ofNat 8 (32 + a.toNat))
  | .rdsUnmapped64 a => .readSigned (BitVec.ofNat 8 (64 + a.toNat))
  | .rdsUnmapped128 a => .readSigned (BitVec.ofNat 8 (128 + a.toNat))
  | .init _ _ _ _ _ _ => .initialise
  | .getsv => .measurement .rds 1
  | .getbv => .measurement .rdu 2
  | .geti => .measurement .rds 4
  | .getp => .measurement .rdu 3

/-- A command with its ignored fields at their canonical value 0 (30_encoding.md R80, R84, decision
D28): the `data` of a read, and everything but `cmd` of a measurement. -/
def Command.canonical : Command → Command
  | .port w => if w.extractLsb' 24 2 = 0 then .port w else .port (w.extractLsb' 16 10 ++ (0 : Word))
  | .seq w rsh imax =>
    if w.extractLsb' 11 3 = 0 then .seq w rsh imax else .seq (w.extractLsb' 11 3 ++ (0 : BitVec 11)) 0 0

namespace Machine

/-! ### When a read is defined -/

/-- A read of address `a` is defined: a derived register needs admitted analog inputs
(43_scaling_engine.md R185; notes/assumptions/8). -/
def State.readable (s : State) (a : Addr) : Bool := !derivedAddr a || s.inputsAdmitted

/-- `NoWideOverflow(Vsh, Vbus, CAL)`: both exact products fit 32 bits (43_scaling_engine.md R195). -/
def NoWideOverflow (s : State) : Prop :=
  -2 ^ 31 ≤ s.shuntCode * s.cal.toNat ∧ s.shuntCode * s.cal.toNat ≤ 2 ^ 31 - 1 ∧
  -2 ^ 31 ≤ Int.fdiv (s.shuntCode * s.cal.toNat) 4096 * s.busQ ∧
  Int.fdiv (s.shuntCode * s.cal.toNat) 4096 * s.busQ ≤ 2 ^ 31 - 1

/-! ### Invariants -/

/-- The stored registers' reserved bits read 0 (10_state.md R23). -/
def RegInv (s : State) : Prop := s.cfg.getLsbD 14 = false ∧ s.cal.getLsbD 0 = false

/-- The named premise of 70_reset_and_hazards.md R251: `RESET_CFG[14] = 0` and `RESET_CAL[0] = 0`. It is
the model's own, not a statement of the source. -/
def ResetClean (p : Params) : Prop := p.resetCfg.getLsbD 14 = false ∧ p.resetCal.getLsbD 0 = false

/-- A CalibrationState is positive (10_state.md R32) and its two computed values agree (42_sequencer.md
R151: `calVal` is the low 16 bits of `floor(0.04096 / (lsbI * Rsh))`). -/
def CalState.Sound (c : CalState) : Prop :=
  0 < c.rsh ∧ 0 < c.lsbI ∧ c.calVal = low16 ((4096 / 100000 : Rat) / (c.lsbI * c.rsh)).floor

/-- The sequencer: wherever a CalibrationState exists it is sound, and inside INIT the caller, blocked
there, has no answer (10_state.md R31, R32). -/
def SeqInv (s : State) : Prop :=
  match s.phase with
  | .uninit => True
  | .cfgWritten c => c.Sound ∧ s.resp = .idle
  | .ready c => c.Sound
  | .failed => True

/-- The invariant every step keeps. -/
def Inv (s : State) : Prop := RegInv s ∧ ResetClean s.params ∧ SeqInv s

/-! ### Moves and the stored registers -/

/-- Whether a move issued outside INIT may change the stored register at address `a` (0 or 5), then or
in the transactions it leads to: a WR or a byte write to it, an INIT, or a new register block
(20_memory.md R59, R61 b). -/
def Move.mayStore (a : Addr) (m : Move) : Bool :=
  match m with
  | .cmd c =>
    match decode c with
    | .ok i =>
      match i.access with
      | .write b _ => b == a
      | .initialise => true
      | .readUnsigned _ => false
      | .readSigned _ => false
      | .measurement _ _ => false
    | .error _ => false
  | .transfer (.write b _) => b == a
  | .transfer (.read _ _) => false
  | .env _ _ => false
  | .clash _ _ => false
  | .resetBlock => true
  | .resetSequencer => false
  | .proceed => false

/-- Whether a move issued outside INIT may change the sequencer's phase: an INIT or a new sequencer
(42_sequencer.md R154). -/
def Move.mayChangePhase (m : Move) : Bool :=
  match m with
  | .cmd c =>
    match decode c with
    | .ok i => i.access == .initialise
    | .error _ => false
  | .transfer _ => false
  | .env _ _ => false
  | .clash _ _ => false
  | .resetBlock => false
  | .resetSequencer => true
  | .proceed => false

end Machine

end Sys2Proof
end

