-- ==== Sys2Proof/Certificates/Slice0/Obligations.lean ====
section
/-! DEFINITION. The statements for the provers, from the numbered rules of spec/. `i.access` (Safety.lean) names
an instruction's kind: `.write a v` is the twelve `wr…` constructors, `.readUnsigned a` the twelve `rdu…`,
`.readSigned a` the twelve `rds…`, `.initialise` is `init`, `.measurement op a` is `getsv` (RDS 1), `getbv`
(RDU 2), `geti` (RDS 4), `getp` (RDU 3). `s.portOk` says that the next transaction completes (always through a
direct attachment), `s.afterDraw` is `s` once its draw is made (`s` itself through a direct attachment). `s.inInit` says
that the sequencer is between INIT's two transactions (phase CFG_WRITTEN), `proceed` is the sequencer's next transaction
there, and `m.byCaller` says that a move is the blocked caller's, a command or a byte transfer. -/

open Sys2Proof Sys2Proof.Machine

/-! ### Encoding -/

/-- Decoding an encoded instruction gives it back, every operand at every value (30_encoding.md section 1; the
command words are the spec's own, decision D4). -/
def Obligations.DecodeEncodeRoundTrip : Prop := ∀ i : Instr, decode (encode i) = .ok i

/-- Encoding a decoded command gives the command with its ignored fields at 0 (decision D28): two words stand for
one instruction exactly when they differ in ignored fields. -/
def Obligations.EncodeDecodeIsCanonical : Prop := ∀ (c : Command) (i : Instr), decode c = .ok i → encode i = c.canonical

/-- The reserved codes, and only they, are rejected by name, and a step on one is refused (30_encoding.md section 5
table; the codes are the spec's own, decision D4). That a step takes the script's head, outside INIT, is the model's choice
(notes/assumptions/1, 2). -/
def Obligations.ReservedWordsAreRefused : Prop :=
  (∀ w : PortWord, decode (.port w) = .error .reservedOp ↔ w.extractLsb' 24 2 = 3) ∧
  (∀ (w : SeqWord) (rsh imax : Rat), decode (.seq w rsh imax) = .error .reservedCmd ↔ 5 ≤ (w.extractLsb' 11 3).toNat) ∧
  (∀ (s : State) (c : Command) (ms : List Move) (e : DecodeError),
    s.script = .cmd c :: ms → s.inInit = false → decode c = .error e → step s = .refused (.reservedEncoding e))

/-- Words the spec writes out decode to the instruction it says (95_test_vectors.md V-PORT, V-CFG, V-SEQ). -/
def Obligations.WrittenWordsDecode : Prop :=
  decode (.port 0x000019F) = .ok (.wrConfiguration 0x019F) ∧ decode (.port 0x0055000) = .ok (.wrCalibration 20480) ∧
  decode (.port 0x0FF0001) = .ok (.wrUnmapped128 127 1) ∧ decode (.port 0x102FFFF) = .ok .rduBusVoltage ∧
  decode (.port 0x2040000) = .ok .rdsCurrent ∧ decode (.port 0x2FF0000) = .ok (.rdsUnmapped128 127) ∧
  decode (.seq 0x0733 (1 / 10) 3) = .ok (.init (1 / 10) 3 1 3 3 3) ∧ decode (.seq 0x0BFF 0 0) = .ok .getsv ∧
  decode (.seq 0x2000 0 0) = .ok .getp

/-! ### The step -/

/-- A step on a command runs the decoded instruction, on the state with that command taken off the script; while INIT is
in progress the caller is blocked (20_memory.md section 5), so a command waits, and the step is the sequencer's. The
script, and which agent acts read off its head, are the model's choice (notes/assumptions/1, 2). -/
def Obligations.StepRunsTheDecodedInstruction : Prop :=
  ∀ (s : State) (c : Command) (ms : List Move), s.script = .cmd c :: ms →
    (∀ i : Instr, s.inInit = false → decode c = .ok i → step s = exec i { s with script := ms }) ∧
    (s.inInit = true → step s = proceed s)

/-- The other moves: outside INIT a byte transfer is handed to the port (30_encoding.md section 1; that it is a move is the
model's choice, notes/assumptions/12), inside it waits. In any phase ENV sets the analog inputs (30_encoding.md section 6),
a new register block and a new sequencer reset independently (70_reset_and_hazards.md section 1), and two unserialised
callers are refused (decision D25). With no move left, or on the move that leaves it to the sequencer, the sequencer goes
on, and outside INIT nothing changes. The script, and which agent acts read off its head, are the model's choice
(notes/assumptions/1, 2). -/
def Obligations.StepMovesOfTheOutside : Prop :=
  ∀ (s : State) (ms : List Move),
    (∀ t, s.script = .transfer t :: ms → s.inInit = false → step s = transferBytes t { s with script := ms }) ∧
    (∀ t, s.script = .transfer t :: ms → s.inInit = true → step s = proceed s) ∧
    (∀ x y, s.script = .env x y :: ms → step s = .next { s with vsh := x, vbus := y, script := ms }) ∧
    (s.script = .resetBlock :: ms →
      step s = .next { s with cfg := s.params.resetCfg, cal := s.params.resetCal, script := ms }) ∧
    (s.script = .resetSequencer :: ms → step s = .next { s with phase := .uninit, script := ms }) ∧
    (∀ a b, s.script = .clash a b :: ms → step s = .refused .concurrentUse) ∧
    (s.script = .proceed :: ms → step s = proceed { s with script := ms }) ∧
    (s.script = [] → step s = proceed s) ∧
    (s.script = [] → s.inInit = false → step s = .next s)

/-- A step of the model is one complete port transaction or none (00_scope.md section 4, decision D1): it draws at most
once, and the bus is as before, or holds the one transaction of a new command, or has INIT's second one added. The bus and
the schedule are the model's choice (notes/assumptions/1, 7). -/
def Obligations.StepIsAtMostOneTransaction : Prop :=
  ∀ s t : State, step s = .next t →
    (t.drawn = s.drawn ∨ t.drawn = s.drawn + 1) ∧
    (t.bus = s.bus ∨ (s.inInit = false ∧ ∃ x, t.bus = [x]) ∨ (s.inInit = true ∧ ∃ x, t.bus = s.bus ++ [x]))

/-! ### WR -/

/-- R180: a write of CONFIGURATION stores `v & 0xBFFF` and changes nothing else; reading it back yields `v & 0xBFFF`, and
every other address reads as before. -/
def Obligations.WrConfigurationStoresMasked : Prop :=
  ∀ (v : Word) (s : State), s.portOk = true →
    exec (.wrConfiguration v) s = .next { s.afterDraw with
      cfg := v &&& 0xBFFF, resp := .done, bus := [⟨.write 0 [v.extractLsb' 8 8, v.extractLsb' 0 8], some []⟩] } ∧
    ∀ t, exec (.wrConfiguration v) s = .next t → t.pattern 0 = v &&& 0xBFFF ∧ ∀ a, a ≠ 0 → t.pattern a = s.pattern a

/-- R181: a write of CALIBRATION stores `v & 0xFFFE` and changes nothing else; reading it back yields `v & 0xFFFE`, and
from the next read on CURRENT and POWER use it. -/
def Obligations.WrCalibrationStoresMasked : Prop :=
  ∀ (v : Word) (s : State), s.portOk = true →
    exec (.wrCalibration v) s = .next { s.afterDraw with
      cal := v &&& 0xFFFE, resp := .done, bus := [⟨.write 5 [v.extractLsb' 8 8, v.extractLsb' 0 8], some []⟩] } ∧
    ∀ t, exec (.wrCalibration v) s = .next t → t.pattern 5 = v &&& 0xFFFE ∧
      t.pattern 4 = low16 (currentCode s.shuntCode (v &&& 0xFFFE)) ∧
      t.pattern 3 = low16 (powerCode (currentCode s.shuntCode (v &&& 0xFFFE)) s.busQ)

/-- R182: a write of any other address (`wrShuntVoltage`, `wrBusVoltage`, `wrPower`, `wrCurrent`, `wrUnmapped6` to
`wrUnmapped128`) is accepted and has no effect: the state is as before but for the answer, and so is every pattern. -/
def Obligations.WrElsewhereHasNoEffect : Prop :=
  ∀ (i : Instr) (a : Addr) (v : Word) (s : State), i.access = .write a v → a ≠ 0 → a ≠ 5 → s.portOk = true →
    exec i s = .next { s.afterDraw with
      resp := .done, bus := [⟨.write a [v.extractLsb' 8 8, v.extractLsb' 0 8], some []⟩] }

/-- A failed WR, at every address: the caller gets the failure; the register holds the masked value exactly when
`fail_write_lands` is drawn (decision D20); nothing else changes. -/
def Obligations.WrFailureLandsOrNot : Prop :=
  ∀ (i : Instr) (a : Addr) (v : Word) (s : State), i.access = .write a v → s.portOk = false →
    exec i s = .next { s.afterDraw with
      cfg := if a = 0 ∧ s.nextDraw.failWriteLands = true then v &&& 0xBFFF else s.cfg
      cal := if a = 5 ∧ s.nextDraw.failWriteLands = true then v &&& 0xFFFE else s.cal
      resp := .ioFailure ⟨.wr, a⟩
      bus := [⟨.write a [v.extractLsb' 8 8, v.extractLsb' 0 8], none⟩] }

/-! ### RDU and RDS -/

/-- RDU returns the pattern of its address as it is, through one read of two bytes; a failed one returns the failure
(41_register_port.md RDU), also at a derived register outside the admitted inputs, which is the model's choice
(notes/assumptions/26). Nothing else changes. -/
def Obligations.RduReturnsThePattern : Prop :=
  ∀ (i : Instr) (a : Addr) (s : State), i.access = .readUnsigned a →
    (s.portOk = true → s.readable a = true →
      exec i s = .next { s.afterDraw with
        resp := .unsigned (s.pattern a).toNat
        bus := [⟨.read a 2, some [(s.pattern a).extractLsb' 8 8, (s.pattern a).extractLsb' 0 8]⟩] }) ∧
    (s.portOk = false →
      exec i s = .next { s.afterDraw with resp := .ioFailure ⟨.rdu, a⟩, bus := [⟨.read a 2, none⟩] })

/-- RDS does the same transaction and returns the pattern in two's complement; a failed one returns the failure
(41_register_port.md RDS), also at a derived register outside the admitted inputs, which is the model's choice
(notes/assumptions/26). Nothing else changes. -/
def Obligations.RdsReturnsTheSignedPattern : Prop :=
  ∀ (i : Instr) (a : Addr) (s : State), i.access = .readSigned a →
    (s.portOk = true → s.readable a = true →
      exec i s = .next { s.afterDraw with
        resp := .signed (if (s.pattern a).toNat < 32768 then (s.pattern a).toNat else (s.pattern a).toNat - 65536)
        bus := [⟨.read a 2, some [(s.pattern a).extractLsb' 8 8, (s.pattern a).extractLsb' 0 8]⟩] }) ∧
    (s.portOk = false →
      exec i s = .next { s.afterDraw with resp := .ioFailure ⟨.rds, a⟩, bus := [⟨.read a 2, none⟩] })

/-- R134: RDU and RDS of one address return the same 16 bits, in two states between which that pattern did not
change. -/
def Obligations.RduAndRdsReturnTheSameBits : Prop :=
  ∀ (i j : Instr) (a : Addr) (s u : State), i.access = .readUnsigned a → j.access = .readSigned a →
    u.pattern a = s.pattern a → s.portOk = true → u.portOk = true → s.readable a = true → u.readable a = true →
    ∃ t w n z, exec i s = .next t ∧ exec j u = .next w ∧ t.resp = .unsigned n ∧ w.resp = .signed z ∧
      (n : Int) = z % 65536 ∧ z = if n < 32768 then (n : Int) else n - 65536

/-- R57: no read (`rdu…`, `rds…`, `getsv`, `getbv`, `geti`, `getp`), completed or failed, changes CFG, CAL, the flag, any
pattern, the sequencer, the parameters or the inputs; and in one machine a derived register's pattern is a function of
`Vsh`, `Vbus` and CAL only. -/
def Obligations.ReadsHaveNoSideEffects : Prop :=
  (∀ (i : Instr) (a : Addr) (s t : State),
    (i.access = .readUnsigned a ∨ i.access = .readSigned a ∨ ∃ op, i.access = .measurement op a) →
    exec i s = .next t →
    t.cfg = s.cfg ∧ t.cal = s.cal ∧ t.phase = s.phase ∧ t.params = s.params ∧ t.vsh = s.vsh ∧ t.vbus = s.vbus ∧
      t.script = s.script ∧ ∀ b, t.pattern b = s.pattern b) ∧
  ∀ (s u : State) (a : Addr), u.params = s.params → u.vsh = s.vsh → u.vbus = s.vbus → u.cal = s.cal →
    1 ≤ a.toNat → a.toNat ≤ 4 → u.pattern a = s.pattern a

/-- A read whose transaction completes is refused `OutOfDomain` exactly when it is a read of a derived register outside
the admitted inputs (decision D8); a measurement so, once the phase is READY; no WR and no INIT is. That it is each of the
four registers, and no other address, is the model's reading (notes/assumptions/8); that a failing transaction is the I/O
failure there, and no refusal, is the model's choice (notes/assumptions/26). -/
def Obligations.DerivedReadsOutsideTheDomainAreRefused : Prop :=
  (∀ (s : State) (a : Addr), s.readable a = false ↔
    (1 ≤ a.toNat ∧ a.toNat ≤ 4) ∧
      ¬ ((-2 ^ 31 ≤ roundAdc s.params.adcTie (s.vsh * 100000) ∧ roundAdc s.params.adcTie (s.vsh * 100000) ≤ 2 ^ 31 - 1) ∧
        (-2 ^ 28 ≤ (s.vbus * 250).floor ∧ (s.vbus * 250).floor ≤ 2 ^ 28 - 1))) ∧
  (∀ (i : Instr) (a : Addr) (s : State), i.access = .readUnsigned a ∨ i.access = .readSigned a →
    (exec i s = .refused .outOfDomain ↔ s.portOk = true ∧ s.readable a = false)) ∧
  (∀ (i : Instr) (op : PortOp) (a : Addr) (s : State), i.access = .measurement op a →
    (exec i s = .refused .outOfDomain ↔ (∃ c, s.phase = .ready c) ∧ s.portOk = true ∧ s.readable a = false)) ∧
  (∀ (i : Instr) (s : State), (∃ a v, i.access = .write a v) ∨ i.access = .initialise →
    exec i s ≠ .refused .outOfDomain)

/-- R196 and R201: CONFIGURATION and CALIBRATION read as stored, whatever the analog inputs; before any write, as
RESET_CFG and RESET_CAL. -/
def Obligations.StoredRegistersReadAsStored : Prop :=
  (∀ s : State, s.portOk = true →
    (∃ t, exec .rduConfiguration s = .next t ∧ t.resp = .unsigned s.cfg.toNat) ∧
    (∃ t, exec .rdsConfiguration s = .next t ∧ t.resp = .signed s.cfg.toInt) ∧
    (∃ t, exec .rduCalibration s = .next t ∧ t.resp = .unsigned s.cal.toNat) ∧
    (∃ t, exec .rdsCalibration s = .next t ∧ t.resp = .signed s.cal.toInt)) ∧
  ∀ p : Params, (State.resetWith p).pattern 0 = p.resetCfg ∧ (State.resetWith p).pattern 5 = p.resetCal

/-- R197: SHUNT_VOLTAGE reads the low 16 bits of `shuntCode`; as a signed read, the code itself when it is an s16,
otherwise the s16 that differs from it by a multiple of 65536. -/
def Obligations.ShuntVoltageReadsTheCode : Prop :=
  ∀ (s : State) (k : Int), k = roundAdc s.params.adcTie (s.vsh * 100000) → s.portOk = true → s.readable 1 = true →
    (∃ t n, exec .rduShuntVoltage s = .next t ∧ t.resp = .unsigned n ∧ (n : Int) = k % 65536) ∧
    (∃ t z, exec .rdsShuntVoltage s = .next t ∧ t.resp = .signed z ∧ z % 65536 = k % 65536 ∧
      -32768 ≤ z ∧ z ≤ 32767 ∧ (-32768 ≤ k → k ≤ 32767 → z = k))

/-- BUS_VOLTAGE: bits 15 to 3 are `floor(Vbus / 4 mV) mod 8192`, bits 2 and 1 are 0 (decision D16), bit 0 is the flag:
set when `shuntCode` exceeds plus or minus 32000, strictly (decision D11), whatever CAL and Vbus are. -/
def Obligations.BusVoltageReadsVoltageAndFlag : Prop :=
  ∀ (s : State) (k q : Int), k = roundAdc s.params.adcTie (s.vsh * 100000) → q = (s.vbus * 250).floor →
    s.portOk = true → s.readable 2 = true →
    (∃ t n, exec .rduBusVoltage s = .next t ∧ t.resp = .unsigned n ∧
      (n : Int) = 8 * (q % 8192) + (if 32000 < k ∨ k < -32000 then 1 else 0)) ∧
    (∃ t z, exec .rdsBusVoltage s = .next t ∧ t.resp = .signed z ∧ -32768 ≤ z ∧ z ≤ 32767 ∧
      z % 65536 = 8 * (q % 8192) + (if 32000 < k ∨ k < -32000 then 1 else 0))

/-- R200: CURRENT reads the low 16 bits of `floor(shuntCode * CAL / 4096)`, the product taken exactly: the 32-bit wrap
of the product never shows in CURRENT (43_scaling_engine.md section 4, the truncation law). -/
def Obligations.CurrentReadsTheExactProduct : Prop :=
  ∀ (s : State) (k : Int), k = roundAdc s.params.adcTie (s.vsh * 100000) → s.portOk = true → s.readable 4 = true →
    (∃ t n, exec .rduCurrent s = .next t ∧ t.resp = .unsigned n ∧ (n : Int) = (k * s.cal.toNat / 4096) % 65536) ∧
    (∃ t z, exec .rdsCurrent s = .next t ∧ t.resp = .signed z ∧ -32768 ≤ z ∧ z ≤ 32767 ∧
      z % 65536 = (k * s.cal.toNat / 4096) % 65536)

/-- POWER reads the low 16 bits of `floor(currentCode * busQ / 5000)`, from the full `currentCode`, both products
reduced to 32 bits (the reduction is decision D9, notes/assumptions/15). -/
def Obligations.PowerReadsTheWrappedProduct : Prop :=
  ∀ (s : State) (k q c : Int), k = roundAdc s.params.adcTie (s.vsh * 100000) → q = (s.vbus * 250).floor →
    c = (k * s.cal.toNat).bmod (2 ^ 32) / 4096 → s.portOk = true → s.readable 3 = true →
    (∃ t n, exec .rduPower s = .next t ∧ t.resp = .unsigned n ∧ (n : Int) = ((c * q).bmod (2 ^ 32) / 5000) % 65536) ∧
    (∃ t z, exec .rdsPower s = .next t ∧ t.resp = .signed z ∧ -32768 ≤ z ∧ z ≤ 32767 ∧
      z % 65536 = ((c * q).bmod (2 ^ 32) / 5000) % 65536)

/-- Where `NoWideOverflow` holds, CURRENT and POWER are those of exact integer arithmetic (43_scaling_engine.md section
2). -/
def Obligations.NoWideOverflowMakesProductsExact : Prop :=
  ∀ s : State, NoWideOverflow s →
    ((s.pattern 4).toNat : Int) = (s.shuntCode * s.cal.toNat / 4096) % 65536 ∧
    ((s.pattern 3).toNat : Int) = (s.shuntCode * s.cal.toNat / 4096 * s.busQ / 5000) % 65536

/-- The sufficient conditions for `NoWideOverflow` (43_scaling_engine.md section 2): an s16 shunt code and a bus voltage
below 16.384 V; or a first product that fits, a current code within 32768 and a bus voltage that fits its field. Below
16.384 V the second product fits for every current code. -/
def Obligations.NoWideOverflowSufficientConditions : Prop :=
  (∀ s : State, -32768 ≤ s.shuntCode → s.shuntCode ≤ 32767 → 0 ≤ s.busQ → s.busQ ≤ 4095 → NoWideOverflow s) ∧
  (∀ s : State, -2 ^ 31 ≤ s.shuntCode * s.cal.toNat → s.shuntCode * s.cal.toNat ≤ 2 ^ 31 - 1 →
    |s.shuntCode * s.cal.toNat / 4096| ≤ 32768 → 0 ≤ s.busQ → s.busQ ≤ 8191 → NoWideOverflow s) ∧
  (∀ s : State, 0 ≤ s.busQ → s.busQ ≤ 4095 →
    -2 ^ 31 ≤ s.currentCode * s.busQ ∧ s.currentCode * s.busQ ≤ 2 ^ 31 - 1)

/-- R202: a read of an unmapped address (`rduUnmapped6` to `rduUnmapped128`, `rdsUnmapped6` to `rdsUnmapped128`) returns 0
and changes nothing. -/
def Obligations.UnmappedReadsReturnZero : Prop :=
  ∀ (i : Instr) (a : Addr) (s : State), 6 ≤ a.toNat → s.portOk = true →
    (i.access = .readUnsigned a →
      exec i s = .next { s.afterDraw with resp := .unsigned 0, bus := [⟨.read a 2, some [0, 0]⟩] }) ∧
    (i.access = .readSigned a →
      exec i s = .next { s.afterDraw with resp := .signed 0, bus := [⟨.read a 2, some [0, 0]⟩] })

/-- R183: the stored configuration word does not enter the datapath: with any other word in CFG, every read of another
register and every measurement ends the same way, with the same result. -/
def Obligations.ConfigurationDoesNotEnterTheDatapath : Prop :=
  ∀ (i : Instr) (a : Addr) (s : State) (w : Word), a ≠ 0 →
    (i.access = .readUnsigned a ∨ i.access = .readSigned a ∨ ∃ op, i.access = .measurement op a) →
    (∀ t, exec i s = .next t → exec i { s with cfg := w } = .next { t with cfg := w }) ∧
    (∀ r, exec i s = .refused r → exec i { s with cfg := w } = .refused r)

/-! ### Codes -/

/-- `round_adc` gives a nearest integer, and exactly half way the one `ADC_TIE` picks (00_scope.md section 6; the
parameter is decision D7). -/
def Obligations.RoundAdcIsNearest : Prop :=
  (∀ (tie : AdcTie) (q : Rat), |(roundAdc tie q : Rat) - q| ≤ 1 / 2) ∧
  ∀ n : Int, roundAdc .halfUp (n + 1 / 2) = n + 1 ∧
    roundAdc .halfAway (n + 1 / 2) = (if 0 ≤ n then n + 1 else n) ∧
    roundAdc .halfEven (n + 1 / 2) = (if n % 2 = 0 then n else n + 1)

/-- The ranges of the codes on admitted inputs (10_state.md section 4 table; they rest on the wrap of decision D9). -/
def Obligations.CodesStayInRange : Prop :=
  ∀ s : State, s.inputsAdmitted = true →
    (-2 ^ 31 ≤ s.shuntCode ∧ s.shuntCode ≤ 2 ^ 31 - 1) ∧ (-2 ^ 28 ≤ s.busQ ∧ s.busQ ≤ 2 ^ 28 - 1) ∧
    (-2 ^ 31 ≤ busCode s.vbus ∧ busCode s.vbus ≤ 2 ^ 31 - 1 ∧ busCode s.vbus = 8 * s.busQ) ∧
    (-2 ^ 31 ≤ curProd s.shuntCode s.cal ∧ curProd s.shuntCode s.cal ≤ 2 ^ 31 - 1) ∧
    (-2 ^ 19 ≤ s.currentCode ∧ s.currentCode ≤ 2 ^ 19 - 1) ∧
    (-2 ^ 31 ≤ powProd s.currentCode s.busQ ∧ powProd s.currentCode s.busQ ≤ 2 ^ 31 - 1) ∧
    (-429497 ≤ s.powerCode ∧ s.powerCode ≤ 429496)

/-! ### The configuration word -/

/-- R110: the configuration word is `range * 8192 + gain * 2048 + badc * 128 + sadc * 8 + 7`. -/
def Obligations.CfgPackPlacesTheCodes : Prop :=
  ∀ (r : BusVoltageRange) (g : Gain) (b d : AdcSetting),
    (cfgPack r g b d).toNat = r.code.toNat * 8192 + g.code.toNat * 2048 + b.code.toNat * 128 + d.code.toNat * 8 + 7

/-- The round trip of the codec: CFGDEC recovers the four settings with bits 15 and 14 clear and mode 7; CFGPACK is
injective; the register block stores every packed word unchanged (40_config_codec.md, the round-trip laws). -/
def Obligations.CfgCodecRoundTrip : Prop :=
  (∀ (r : BusVoltageRange) (g : Gain) (b d : AdcSetting),
    cfgDec (cfgPack r g b d) = ⟨false, false, r, g, some b, some d, 7, true⟩ ∧ cfgPack r g b d &&& 0xBFFF = cfgPack r g b d) ∧
  ∀ (r r' : BusVoltageRange) (g g' : Gain) (b b' d d' : AdcSetting), cfgPack r g b d = cfgPack r' g' b' d' →
    r = r' ∧ g = g' ∧ b = b' ∧ d = d'

/-- R113: the code maps give their tables' codes, they are total and injective onto their tables, and `AdcName` is the
partial inverse of `adcCode`. -/
def Obligations.CodeMapsAreInjectiveOntoTheirTables : Prop :=
  ([BusVoltageRange.range16V, .range32V].map (·.code) = [0, 1] ∧
    [Gain.gain1, .gain2, .gain4, .gain8].map (·.code) = [0, 1, 2, 3] ∧
    [AdcSetting.adc9Bit, .adc10Bit, .adc11Bit, .adc12Bit].map (·.code) = [0, 1, 2, 3] ∧
    [AdcSetting.adcAvg2, .adcAvg4, .adcAvg8, .adcAvg16, .adcAvg32, .adcAvg64, .adcAvg128].map (·.code) =
      [9, 10, 11, 12, 13, 14, 15] ∧
    [RegisterAddress.configuration, .shuntVoltage, .busVoltage, .power, .current, .calibration].map (·.code) =
      [0, 1, 2, 3, 4, 5] ∧
    [DeviceAddress.dev40, .dev41, .dev44, .dev45].map (·.code) = [0x40, 0x41, 0x44, 0x45]) ∧
  (∀ c : BitVec 1, ∃ r : BusVoltageRange, r.code = c ∧ ∀ r' : BusVoltageRange, r'.code = c → r' = r) ∧
  (∀ c : BitVec 2, ∃ g : Gain, g.code = c ∧ ∀ g' : Gain, g'.code = c → g' = g) ∧
  (∀ (c : BitVec 4) (a : AdcSetting), AdcSetting.ofCode c = some a ↔ a.code = c) ∧
  (∀ c : BitVec 4, AdcSetting.ofCode c = none ↔ 4 ≤ c.toNat ∧ c.toNat ≤ 8) ∧
  (∀ c : Addr, (∃ r : RegisterAddress, r.code = c) ↔ c.toNat ≤ 5) ∧
  (∀ r r' : RegisterAddress, r.code = r'.code → r = r') ∧
  (∀ c : BitVec 7, (∃ d : DeviceAddress, d.code = c) ↔ c = 0x40 ∨ c = 0x41 ∨ c = 0x44 ∨ c = 0x45) ∧
  (∀ d d' : DeviceAddress, d.code = d'.code → d = d')

/-! ### INIT -/

/-- INIT with admitted operands, both writes completing, is two steps, one per transaction (00_scope.md section 4). The
first writes CONFIGURATION: CFG holds the packed word, the phase is CFG_WRITTEN and the caller has no answer. The second,
the sequencer's, writes CALIBRATION: CAL holds the calibration value with bit 0 cleared and the phase is READY. `Rsh`,
`lsbI = Imax / 32768` and `calVal = floor(1342.17728 / (Imax * Rsh))` cut to 16 bits (the cut is decision D17) are those of
the operands. Nothing else changes. -/
def Obligations.InitWritesConfigurationThenCalibration : Prop :=
  ∀ (rsh imax : Rat) (r : BusVoltageRange) (g : Gain) (b d : AdcSetting) (w k : Word) (s : State),
    0 < rsh → 0 < imax → s.portOk = true →
    w = cfgPack r g b d → k = BitVec.ofInt 16 (134217728 / 100000 / (imax * rsh) : Rat).floor →
    ∃ t, exec (.init rsh imax r.code g.code b.code d.code) s = .next t ∧
      t = { s.afterDraw with
        cfg := w, phase := .cfgWritten ⟨rsh, imax / 32768, k⟩, resp := .idle
        bus := [⟨.write 0 [w.extractLsb' 8 8, w.extractLsb' 0 8], some []⟩] } ∧
      (s.afterDraw.portOk = true → proceed t = .next { s.afterDraw.afterDraw with
        cfg := w, cal := k &&& 0xFFFE, phase := .ready ⟨rsh, imax / 32768, k⟩, resp := .done
        bus := [⟨.write 0 [w.extractLsb' 8 8, w.extractLsb' 0 8], some []⟩,
          ⟨.write 5 [k.extractLsb' 8 8, k.extractLsb' 0 8], some []⟩] })

/-- A run of two steps from an INIT command, with no move of the environment between its two writes, ends in READY with
both registers written and the rest of the script untouched (42_sequencer.md section 2; the two steps are 00_scope.md
section 4's; the script, and that the sequencer acts while the caller waits, are the model's choice, notes/assumptions/1,
2). -/
def Obligations.TwoStepsCompleteInit : Prop :=
  ∀ (rsh imax : Rat) (r : BusVoltageRange) (g : Gain) (b d : AdcSetting) (c : Command) (ms : List Move) (w k : Word) (s : State),
    0 < rsh → 0 < imax → s.inInit = false → s.portOk = true → s.afterDraw.portOk = true →
    s.script = .cmd c :: ms → decode c = .ok (.init rsh imax r.code g.code b.code d.code) →
    (∀ m ∈ ms.head?, m.byCaller = true) →
    w = cfgPack r g b d → k = BitVec.ofInt 16 (134217728 / 100000 / (imax * rsh) : Rat).floor →
    Host.Core.run core 2 s = .next { s.afterDraw.afterDraw with
      cfg := w, cal := k &&& 0xFFFE, phase := .ready ⟨rsh, imax / 32768, k⟩, script := ms, resp := .done
      bus := [⟨.write 0 [w.extractLsb' 8 8, w.extractLsb' 0 8], some []⟩,
        ⟨.write 5 [k.extractLsb' 8 8, k.extractLsb' 0 8], some []⟩] }

/-- INIT ending in an I/O failure: phase FAILED, no CalibrationState, the failure to the caller. When the first write
fails the second is not issued, the sequencer has nothing left to do (decision D19), and CAL is old; when the second fails
CFG is new. Either failed write may have landed (decision D20). -/
def Obligations.InitFailureLeavesNoInstance : Prop :=
  ∀ (rsh imax : Rat) (r : BusVoltageRange) (g : Gain) (b d : AdcSetting) (w k : Word) (s : State),
    0 < rsh → 0 < imax → w = cfgPack r g b d → k = BitVec.ofInt 16 (134217728 / 100000 / (imax * rsh) : Rat).floor →
    (s.portOk = false → ∃ t, exec (.init rsh imax r.code g.code b.code d.code) s = .next t ∧
      t = { s.afterDraw with
        cfg := if s.nextDraw.failWriteLands then w else s.cfg
        phase := .failed, resp := .ioFailure ⟨.wr, 0⟩
        bus := [⟨.write 0 [w.extractLsb' 8 8, w.extractLsb' 0 8], none⟩] } ∧
      proceed t = .next t) ∧
    (s.portOk = true → s.afterDraw.portOk = false →
      ∃ t, exec (.init rsh imax r.code g.code b.code d.code) s = .next t ∧
        proceed t = .next { s.afterDraw.afterDraw with
          cfg := w, cal := if s.afterDraw.nextDraw.failWriteLands then k &&& 0xFFFE else s.cal
          phase := .failed, resp := .ioFailure ⟨.wr, 5⟩
          bus := [⟨.write 0 [w.extractLsb' 8 8, w.extractLsb' 0 8], some []⟩,
            ⟨.write 5 [k.extractLsb' 8 8, k.extractLsb' 0 8], none⟩] })

/-- INIT is refused, in every phase, exactly on operands outside their types (decision D18). -/
def Obligations.InitRefusesOperandsOutsideTheirTypes : Prop :=
  ∀ (rsh imax : Rat) (range : BitVec 1) (gain : BitVec 2) (badc sadc : BitVec 4) (s : State),
    exec (.init rsh imax range gain badc sadc) s = .refused .badOperand ↔
      ¬ (0 < rsh ∧ 0 < imax ∧ (badc.toNat ≤ 3 ∨ 9 ≤ badc.toNat) ∧ (sadc.toNat ≤ 3 ∨ 9 ≤ sadc.toNat))

/-- INIT's two transactions and the phase between them (42_sequencer.md section 2 table; the phase variable is decision
D2): the first ends in CFG_WRITTEN or FAILED, the second in READY or FAILED. The second starts from whatever state the
environment has left between the two (that it may act there is the model's choice, notes/assumptions/1), and changes
CAL, the phase, the draw, the answer and the bus only. -/
def Obligations.InitPassesThroughCfgWritten : Prop :=
  (∀ (w : Word) (c : CalState) (s : State),
    (s.portOk = true → ∃ t, initConfiguration w c s = .ok () t ∧ t.phase = .cfgWritten c ∧ t.cfg = w &&& 0xBFFF ∧ t.cal = s.cal) ∧
    (s.portOk = false → ∃ t, initConfiguration w c s = .failed ⟨.wr, 0⟩ t ∧ t.phase = .failed ∧ t.cal = s.cal) ∧
    (s.portOk = true → ∃ t, initCalibration c s = .ok () t ∧ t.phase = .ready c ∧ t.cal = c.calVal &&& 0xFFFE ∧ t.cfg = s.cfg) ∧
    (s.portOk = false → ∃ t, initCalibration c s = .failed ⟨.wr, 5⟩ t ∧ t.phase = .failed ∧ t.cfg = s.cfg)) ∧
  ∀ (c : CalState) (s : State), s.phase = .cfgWritten c →
    (s.portOk = true → proceed s = .next { s.afterDraw with
      cal := c.calVal &&& 0xFFFE, phase := .ready c, resp := .done
      bus := s.bus ++ [⟨.write 5 [c.calVal.extractLsb' 8 8, c.calVal.extractLsb' 0 8], some []⟩] }) ∧
    (s.portOk = false → proceed s = .next { s.afterDraw with
      cal := if s.nextDraw.failWriteLands then c.calVal &&& 0xFFFE else s.cal
      phase := .failed, resp := .ioFailure ⟨.wr, 5⟩
      bus := s.bus ++ [⟨.write 5 [c.calVal.extractLsb' 8 8, c.calVal.extractLsb' 0 8], none⟩] })

/-- The phase transitions (42_sequencer.md section 2: "There is no other transition"; the phase variable is decision D2).
Outside INIT nothing but an INIT command or a new sequencer changes the phase, and an INIT command leaves CFG_WRITTEN or
FAILED. Inside INIT the sequencer's step leaves READY, with the CalibrationState of the INIT, or FAILED, and of the other
moves only a new sequencer changes the phase. Which of these a step does is read off the script, the model's choice
(notes/assumptions/1, 2). -/
def Obligations.PhaseChangesOnlyByInitOrReset : Prop :=
  ∀ s t : State, step s = .next t →
    (s.inInit = false → (∀ m ∈ s.script.head?, m.mayChangePhase = false) → t.phase = s.phase) ∧
    (∀ c i ms, s.inInit = false → s.script = .cmd c :: ms → decode c = .ok i → i.access = .initialise →
      t.phase = .failed ∨ ∃ k, t.phase = .cfgWritten k) ∧
    (∀ k, s.phase = .cfgWritten k → (∀ m ∈ s.script.head?, m.byCaller = true ∨ m = .proceed) →
      t.phase = .ready k ∨ t.phase = .failed) ∧
    (∀ k m ms, s.phase = .cfgWritten k → s.script = m :: ms → m.byCaller = false → m ≠ .proceed → m ≠ .resetSequencer →
      t.phase = .cfgWritten k)

/-! ### Measurements -/

/-- GETSV in READY: the SHUNT_VOLTAGE pattern in two's complement, times 1/100000 volt. -/
def Obligations.GetsvScalesTheShuntVoltage : Prop :=
  ∀ (s : State) (c : CalState) (z : Int), s.phase = .ready c → s.portOk = true → s.readable 1 = true →
    z = (s.pattern 1).toInt →
    exec .getsv s = .next { s.afterDraw with
      resp := .measured z (1 / 100000) (z / 100000)
      bus := [⟨.read 1 2, some [(s.pattern 1).extractLsb' 8 8, (s.pattern 1).extractLsb' 0 8]⟩] }

/-- GETBV in READY: `floor(Vbus / 4 mV) mod 8192`, whatever the overflow flag is, times 1/250 volt. -/
def Obligations.GetbvScalesTheBusVoltage : Prop :=
  ∀ (s : State) (c : CalState) (q : Int), s.phase = .ready c → s.portOk = true → s.readable 2 = true →
    q = (s.vbus * 250).floor % 8192 →
    exec .getbv s = .next { s.afterDraw with
      resp := .measured q (4 / 1000) (q / 250)
      bus := [⟨.read 2 2, some [(s.pattern 2).extractLsb' 8 8, (s.pattern 2).extractLsb' 0 8]⟩] }

/-- GETI in READY: the CURRENT pattern in two's complement, times the `lsbI` of the last INIT. -/
def Obligations.GetiScalesTheCurrent : Prop :=
  ∀ (s : State) (c : CalState) (z : Int), s.phase = .ready c → s.portOk = true → s.readable 4 = true →
    z = (s.pattern 4).toInt →
    exec .geti s = .next { s.afterDraw with
      resp := .measured z c.lsbI (z * c.lsbI)
      bus := [⟨.read 4 2, some [(s.pattern 4).extractLsb' 8 8, (s.pattern 4).extractLsb' 0 8]⟩] }

/-- GETP in READY: the POWER pattern, unsigned, times 20 times the `lsbI` of the last INIT. -/
def Obligations.GetpScalesThePower : Prop :=
  ∀ (s : State) (c : CalState) (n : Nat), s.phase = .ready c → s.portOk = true → s.readable 3 = true →
    n = (s.pattern 3).toNat →
    exec .getp s = .next { s.afterDraw with
      resp := .measured n (20 * c.lsbI) (n * 20 * c.lsbI)
      bus := [⟨.read 3 2, some [(s.pattern 3).extractLsb' 8 8, (s.pattern 3).extractLsb' 0 8]⟩] }

/-- A measurement when the phase is not READY is refused (decision D22). -/
def Obligations.MeasurementsNeedReady : Prop :=
  ∀ (i : Instr) (op : PortOp) (a : Addr) (s : State), i.access = .measurement op a → (∀ c, s.phase ≠ .ready c) →
    exec i s = .refused .notReady

/-- A measurement whose read fails returns the failure unchanged; the phase stays READY, the CalibrationState and the
register block are untouched (42_sequencer.md section 3). That this is so outside the admitted inputs too is the model's
choice (notes/assumptions/26). -/
def Obligations.MeasurementFailurePropagates : Prop :=
  ∀ (i : Instr) (op : PortOp) (a : Addr) (s : State) (c : CalState), i.access = .measurement op a → s.phase = .ready c →
    s.portOk = false →
    exec i s = .next { s.afterDraw with resp := .ioFailure ⟨op, a⟩, bus := [⟨.read a 2, none⟩] }

/-- The ranges of the four results (42_sequencer.md section 3, the corner cases). -/
def Obligations.MeasurementsStayInRange : Prop :=
  ∀ (s : State) (c : CalState) (op : PortOp) (a : Addr) (i : Instr) (t : State) (code : Int) (weight value : Rat),
    s.phase = .ready c → 0 < c.lsbI → i.access = .measurement op a → exec i s = .next t → t.resp = .measured code weight value →
    value = code * weight ∧
    (i = .getsv → -32768 / 100000 ≤ value ∧ value ≤ 32767 / 100000) ∧
    (i = .getbv → 0 ≤ value ∧ value ≤ 32764 / 1000) ∧
    (i = .geti → -(32768 * c.lsbI) ≤ value ∧ value ≤ 32767 * c.lsbI) ∧
    (i = .getp → 0 ≤ value ∧ value ≤ 65535 * 20 * c.lsbI)

/-- As long as nothing wraps, GETP is within one power LSB below the product of the un-truncated current and the bus
voltage (42_sequencer.md section 4). -/
def Obligations.GetpIsWithinOnePowerLsb : Prop :=
  ∀ (s : State) (c : CalState), s.phase = .ready c → 0 < c.lsbI → s.portOk = true → s.readable 3 = true →
    NoWideOverflow s → 0 ≤ s.powerCode → s.powerCode ≤ 65535 →
    ∃ t code weight value, exec .getp s = .next t ∧ t.resp = .measured code weight value ∧
      value ≤ (s.currentCode * c.lsbI) * (s.busQ * (4 / 1000)) ∧
      (s.currentCode * c.lsbI) * (s.busQ * (4 / 1000)) < value + 20 * c.lsbI

/-- After an INIT whose calibration value fits 16 bits, with the CALIBRATION register as INIT left it and a non-negative
code that fits the CURRENT register, GETI never exceeds Ohm's law (42_sequencer.md section 4). -/
def Obligations.GetiNeverExceedsOhmsLaw : Prop :=
  ∀ (s : State) (rsh imax : Rat), 0 < rsh → 0 < imax →
    (134217728 / 100000 / (imax * rsh) : Rat).floor ≤ 65535 → s.phase = .ready (CalState.compute rsh imax) →
    s.cal = (CalState.compute rsh imax).calVal &&& 0xFFFE → s.portOk = true → s.readable 4 = true →
    0 ≤ s.shuntCode → s.shuntCode * s.cal.toNat / 4096 ≤ 32767 →
    ∃ t code weight value, exec .geti s = .next t ∧ t.resp = .measured code weight value ∧
      0 ≤ value ∧ value ≤ s.shuntCode / 100000 / rsh

/-! ### The whole machine -/

/-- Every step keeps the invariant: bit 14 of CFG and bit 0 of CAL are 0; in CFG_WRITTEN and READY the CalibrationState is
positive with `calVal` the low 16 bits of `floor(0.04096 / (lsbI * Rsh))`; in CFG_WRITTEN the blocked caller has no
answer. -/
def Obligations.StepKeepsTheInvariant : Prop := ∀ s t : State, Inv s → step s = .next t → Inv t

/-- The invariant holds at reset, for all parameters that meet the named premise of 70_reset_and_hazards.md section 1
(`ResetClean`). -/
def Obligations.ResetMeetsTheInvariant : Prop := ∀ p : Params, ResetClean p → Inv (State.resetWith p)

/-- No step changes the attachment or any other parameter (10_state.md section 6: fixed for its life). -/
def Obligations.ParametersNeverChange : Prop := ∀ s t : State, step s = .next t → t.params = s.params

/-- Over all instructions: CFG changes only by `wrConfiguration` and INIT's first transaction, CAL only by `wrCalibration`
and INIT's second, which is the sequencer's and leaves CFG alone (20_memory.md section 4, the address map). -/
def Obligations.StoredRegistersChangeOnlyByTheirWrites : Prop :=
  (∀ (i : Instr) (s t : State), exec i s = .next t →
    ((∀ v, i ≠ .wrConfiguration v) → i.access ≠ .initialise → t.cfg = s.cfg) ∧
    ((∀ v, i ≠ .wrCalibration v) → t.cal = s.cal)) ∧
  ∀ s t : State, proceed s = .next t → t.cfg = s.cfg ∧ (s.inInit = false → t.cal = s.cal)

/-- A read of CONFIGURATION or CALIBRATION returns the masked value of the latest write of it that completed, after any
number of steps none of which may store there (20_memory.md section 5; the script the steps take is the model's choice,
notes/assumptions/1, 2). For CALIBRATION the write is issued outside INIT,
as every command of a blocked caller is. -/
def Obligations.LatestCompletedWriteIsRead : Prop :=
  ∀ (v : Word) (s t u : State) (k : Nat), s.portOk = true → u.portOk = true → Host.Core.run core k t = .next u →
    (exec (.wrConfiguration v) s = .next t → (∀ m ∈ t.script.take k, m.mayStore 0 = false) →
      ∃ x, exec .rduConfiguration u = .next x ∧ x.resp = .unsigned (v &&& 0xBFFF).toNat) ∧
    (exec (.wrCalibration v) s = .next t → s.inInit = false → (∀ m ∈ t.script.take k, m.mayStore 5 = false) →
      ∃ x, exec .rduCalibration u = .next x ∧ x.resp = .unsigned (v &&& 0xFFFE).toNat)

/-- Big-endian on the wire (20_memory.md R54), for the port commands: a write sends the more significant byte first, and a
read's value is composed from the first byte received as the more significant. -/
def Obligations.WireIsBigEndian : Prop :=
  (∀ (i : Instr) (a : Addr) (v : Word) (s t : State), i.access = .write a v → exec i s = .next t →
    ∃ hi lo ans, t.bus = [⟨.write a [hi, lo], ans⟩] ∧ hi.toNat * 256 + lo.toNat = v.toNat) ∧
  (∀ (i : Instr) (a : Addr) (s t : State) (n : Nat), i.access = .readUnsigned a → exec i s = .next t →
    t.resp = .unsigned n → ∃ hi lo, t.bus = [⟨.read a 2, some [hi, lo]⟩] ∧ n = hi.toNat * 256 + lo.toNat) ∧
  (∀ (i : Instr) (a : Addr) (s t : State) (z : Int), i.access = .readSigned a → exec i s = .next t →
    t.resp = .signed z → ∃ hi lo, t.bus = [⟨.read a 2, some [hi, lo]⟩] ∧ z % 65536 = hi.toNat * 256 + lo.toNat)

/-- Every instruction that ends its step has issued exactly one transaction. It is the only one, but for an INIT whose
first write completed: there the sequencer's next transaction is the second and last one. When INIT's first write fails
there is no second (decision D19), and that write's failure is the answer. -/
def Obligations.TransactionsPerCommand : Prop :=
  ∀ (i : Instr) (s t : State), exec i s = .next t →
    t.bus.length = 1 ∧
    (i.access ≠ .initialise → s.inInit = false → proceed t = .next t) ∧
    (i.access = .initialise → s.portOk = true → ∃ u, proceed t = .next u ∧ u.bus.length = 2 ∧ proceed u = .next u) ∧
    (i.access = .initialise → s.portOk = false → t.resp = .ioFailure ⟨.wr, 0⟩ ∧ proceed t = .next t)

/-- Through a direct attachment no command, and no second transaction of INIT, ends in an I/O failure, and none makes a
draw (41_register_port.md, the direct attachment never fails). -/
def Obligations.DirectAttachmentNeverFails : Prop :=
  (∀ (i : Instr) (s t : State), s.params.port = .direct → exec i s = .next t →
    (∀ e, t.resp ≠ .ioFailure e) ∧ t.draws = s.draws ∧ t.drawn = s.drawn) ∧
  ∀ s t : State, s.params.port = .direct → s.inInit = true → proceed s = .next t →
    (∀ e, t.resp ≠ .ioFailure e) ∧ t.draws = s.draws ∧ t.drawn = s.drawn

/-! ### Reset, binding, byte transfers -/

/-- The state after reset: RESET_CFG, RESET_CAL, phase UNINIT, for all parameters (10_state.md section 9; the phase is
decision D2). -/
def Obligations.ResetValues : Prop :=
  (∀ p : Params, (State.resetWith p).cfg = p.resetCfg ∧ (State.resetWith p).cal = p.resetCal ∧
    (State.resetWith p).phase = .uninit ∧ (State.resetWith p).params = p) ∧
  ∃ p : Params, State.reset = State.resetWith p

/-- A port is bound to one of the four device addresses; any other value is refused (decisions D18, D27). -/
def Obligations.OnlyFourDeviceAddressesBind : Prop :=
  ∀ (code : BitVec 7) (p : Params),
    (code = 0x40 ∨ code = 0x41 ∨ code = 0x44 ∨ code = 0x45 →
      ∃ d : DeviceAddress, d.code = code ∧ bindTransport code p = .next (State.resetWith { p with port := .transport d })) ∧
    (¬ (code = 0x40 ∨ code = 0x41 ∨ code = 0x44 ∨ code = 0x45) → bindTransport code p = .refused .badOperand)

/-- A byte transfer of any length but two is refused (decision D24); one of two bytes acts as the WR or the RDU of its
address, which is the model's choice (notes/assumptions/12). -/
def Obligations.TransfersMoveTwoBytes : Prop :=
  ∀ (a : Addr) (s : State),
    (∀ bytes : List Byte, bytes.length ≠ 2 → transferBytes (.write a bytes) s = .refused .badLength) ∧
    (∀ length : Nat, length ≠ 2 → transferBytes (.read a length) s = .refused .badLength) ∧
    (∀ (i : Instr) (hi lo : Byte), i.access = .write a (hi ++ lo) → transferBytes (.write a [hi, lo]) s = exec i s) ∧
    (∀ i : Instr, i.access = .readUnsigned a → transferBytes (.read a 2) s = exec i s)
end

