-- ==== Sys2Proof/Laws/Encoding.lean ====
section
/-! SUPPORT. The fields of a packed command word come out as they went in, and register addresses and the opcode
table's address rows determine each other. -/

namespace Sys2Proof

/-- The row of a row's address is the row. -/
theorem AddrRow.ofAddr_named : ∀ r : RegisterAddress, ofAddr (AddrRow.named r).addr = .named r := by
  intro r; cases r <;> rfl

theorem AddrRow.ofAddr_unmapped6 : ∀ a, ofAddr (unmapped6 a).addr = unmapped6 a := by decide

theorem AddrRow.ofAddr_unmapped8 : ∀ a, ofAddr (unmapped8 a).addr = unmapped8 a := by decide

theorem AddrRow.ofAddr_unmapped16 : ∀ a, ofAddr (unmapped16 a).addr = unmapped16 a := by decide

theorem AddrRow.ofAddr_unmapped32 : ∀ a, ofAddr (unmapped32 a).addr = unmapped32 a := by decide

theorem AddrRow.ofAddr_unmapped64 : ∀ a, ofAddr (unmapped64 a).addr = unmapped64 a := by decide +kernel

theorem AddrRow.ofAddr_unmapped128 : ∀ a, ofAddr (unmapped128 a).addr = unmapped128 a := by decide +kernel

theorem AddrRow.ofAddr_addr (row : AddrRow) : ofAddr row.addr = row := by
  cases row with
  | named r => exact ofAddr_named r
  | unmapped6 a => exact ofAddr_unmapped6 a
  | unmapped8 a => exact ofAddr_unmapped8 a
  | unmapped16 a => exact ofAddr_unmapped16 a
  | unmapped32 a => exact ofAddr_unmapped32 a
  | unmapped64 a => exact ofAddr_unmapped64 a
  | unmapped128 a => exact ofAddr_unmapped128 a

/-- The address of an address's row is the address: the twelve rows cover all 256 addresses. -/
theorem AddrRow.addr_ofAddr : ∀ a : Addr, (ofAddr a).addr = a := by decide +kernel

/-- Decoding a format P word built from its fields reads those fields. -/
theorem decodePort_fields (op : BitVec 2) (row : AddrRow) (data : Word) :
    decode (portWord op row data) =
      match op.toNat with
      | 0 => .ok (Instr.ofWr row data)
      | 1 => .ok (Instr.ofRdu row)
      | 2 => .ok (Instr.ofRds row)
      | _ => .error .reservedOp := by
  have hOp : (op ++ row.addr ++ data).extractLsb' 24 2 = op := by
    ext i hi
    simp only [BitVec.getElem_extractLsb', BitVec.getLsbD_append, if_neg (show ¬ 24 + i < 16 by omega),
      if_neg (show ¬ 24 + i - 16 < 8 by omega), show 24 + i - 16 - 8 = i by omega, BitVec.getLsbD_eq_getElem hi]
  have hAddr : (op ++ row.addr ++ data).extractLsb' 16 8 = row.addr := by
    ext i hi
    simp only [BitVec.getElem_extractLsb', BitVec.getLsbD_append, if_neg (show ¬ 16 + i < 16 by omega),
      show 16 + i - 16 = i by omega, if_pos hi, BitVec.getLsbD_eq_getElem hi]
  have hData : (op ++ row.addr ++ data).extractLsb' 0 16 = data := by
    ext i hi
    simp only [BitVec.getElem_extractLsb', BitVec.getLsbD_append, Nat.zero_add, if_pos hi, BitVec.getLsbD_eq_getElem hi]
  show (match ((op ++ row.addr ++ data).extractLsb' 24 2).toNat with
    | 0 => Except.ok (Instr.ofWr (AddrRow.ofAddr ((op ++ row.addr ++ data).extractLsb' 16 8))
        ((op ++ row.addr ++ data).extractLsb' 0 16))
    | 1 => .ok (Instr.ofRdu (AddrRow.ofAddr ((op ++ row.addr ++ data).extractLsb' 16 8)))
    | 2 => .ok (Instr.ofRds (AddrRow.ofAddr ((op ++ row.addr ++ data).extractLsb' 16 8)))
    | _ => .error DecodeError.reservedOp) = _
  rw [hOp, hAddr, hData, AddrRow.ofAddr_addr]

/-- The fields of a format S word built for INIT. -/
theorem seqWord_init_fields : ∀ (r : BitVec 1) (g : BitVec 2) (b d : BitVec 4),
    (seqWord 0 r g b d).extractLsb' 11 3 = 0 ∧ (seqWord 0 r g b d).extractLsb' 10 1 = r ∧
      (seqWord 0 r g b d).extractLsb' 8 2 = g ∧ (seqWord 0 r g b d).extractLsb' 4 4 = b ∧
      (seqWord 0 r g b d).extractLsb' 0 4 = d := by
  decide +kernel

end Sys2Proof
end

