-- ==== Sys2Proof/Laws/State.lean ====
section
/-! SUPPORT. One lemma per field per one-field update of State, and what follows for the derived
quantities (codes, patterns, draws) that read only some of the fields. -/

namespace Sys2Proof.Machine

variable (s : State)

/-! ### Fields after an update -/

@[simp] theorem State.setCfg_cfg (v : Word) : (s.setCfg v).cfg = v := rfl
@[simp] theorem State.setCfg_cal (v : Word) : (s.setCfg v).cal = s.cal := rfl
@[simp] theorem State.setCfg_phase (v : Word) : (s.setCfg v).phase = s.phase := rfl
@[simp] theorem State.setCfg_params (v : Word) : (s.setCfg v).params = s.params := rfl
@[simp] theorem State.setCfg_vsh (v : Word) : (s.setCfg v).vsh = s.vsh := rfl
@[simp] theorem State.setCfg_vbus (v : Word) : (s.setCfg v).vbus = s.vbus := rfl
@[simp] theorem State.setCfg_draws (v : Word) : (s.setCfg v).draws = s.draws := rfl
@[simp] theorem State.setCfg_drawn (v : Word) : (s.setCfg v).drawn = s.drawn := rfl
@[simp] theorem State.setCfg_script (v : Word) : (s.setCfg v).script = s.script := rfl
@[simp] theorem State.setCfg_resp (v : Word) : (s.setCfg v).resp = s.resp := rfl
@[simp] theorem State.setCfg_bus (v : Word) : (s.setCfg v).bus = s.bus := rfl

@[simp] theorem State.setCal_cfg (v : Word) : (s.setCal v).cfg = s.cfg := rfl
@[simp] theorem State.setCal_cal (v : Word) : (s.setCal v).cal = v := rfl
@[simp] theorem State.setCal_phase (v : Word) : (s.setCal v).phase = s.phase := rfl
@[simp] theorem State.setCal_params (v : Word) : (s.setCal v).params = s.params := rfl
@[simp] theorem State.setCal_vsh (v : Word) : (s.setCal v).vsh = s.vsh := rfl
@[simp] theorem State.setCal_vbus (v : Word) : (s.setCal v).vbus = s.vbus := rfl
@[simp] theorem State.setCal_draws (v : Word) : (s.setCal v).draws = s.draws := rfl
@[simp] theorem State.setCal_drawn (v : Word) : (s.setCal v).drawn = s.drawn := rfl
@[simp] theorem State.setCal_script (v : Word) : (s.setCal v).script = s.script := rfl
@[simp] theorem State.setCal_resp (v : Word) : (s.setCal v).resp = s.resp := rfl
@[simp] theorem State.setCal_bus (v : Word) : (s.setCal v).bus = s.bus := rfl

@[simp] theorem State.setPhase_cfg (p : Phase) : (s.setPhase p).cfg = s.cfg := rfl
@[simp] theorem State.setPhase_cal (p : Phase) : (s.setPhase p).cal = s.cal := rfl
@[simp] theorem State.setPhase_phase (p : Phase) : (s.setPhase p).phase = p := rfl
@[simp] theorem State.setPhase_params (p : Phase) : (s.setPhase p).params = s.params := rfl
@[simp] theorem State.setPhase_vsh (p : Phase) : (s.setPhase p).vsh = s.vsh := rfl
@[simp] theorem State.setPhase_vbus (p : Phase) : (s.setPhase p).vbus = s.vbus := rfl
@[simp] theorem State.setPhase_draws (p : Phase) : (s.setPhase p).draws = s.draws := rfl
@[simp] theorem State.setPhase_drawn (p : Phase) : (s.setPhase p).drawn = s.drawn := rfl
@[simp] theorem State.setPhase_script (p : Phase) : (s.setPhase p).script = s.script := rfl
@[simp] theorem State.setPhase_resp (p : Phase) : (s.setPhase p).resp = s.resp := rfl
@[simp] theorem State.setPhase_bus (p : Phase) : (s.setPhase p).bus = s.bus := rfl

@[simp] theorem State.setInputs_cfg (x y : Rat) : (s.setInputs x y).cfg = s.cfg := rfl
@[simp] theorem State.setInputs_cal (x y : Rat) : (s.setInputs x y).cal = s.cal := rfl
@[simp] theorem State.setInputs_phase (x y : Rat) : (s.setInputs x y).phase = s.phase := rfl
@[simp] theorem State.setInputs_params (x y : Rat) : (s.setInputs x y).params = s.params := rfl
@[simp] theorem State.setInputs_vsh (x y : Rat) : (s.setInputs x y).vsh = x := rfl
@[simp] theorem State.setInputs_vbus (x y : Rat) : (s.setInputs x y).vbus = y := rfl
@[simp] theorem State.setInputs_draws (x y : Rat) : (s.setInputs x y).draws = s.draws := rfl
@[simp] theorem State.setInputs_drawn (x y : Rat) : (s.setInputs x y).drawn = s.drawn := rfl
@[simp] theorem State.setInputs_script (x y : Rat) : (s.setInputs x y).script = s.script := rfl
@[simp] theorem State.setInputs_resp (x y : Rat) : (s.setInputs x y).resp = s.resp := rfl
@[simp] theorem State.setInputs_bus (x y : Rat) : (s.setInputs x y).bus = s.bus := rfl

@[simp] theorem State.setScript_cfg (ms : List Move) : (s.setScript ms).cfg = s.cfg := rfl
@[simp] theorem State.setScript_cal (ms : List Move) : (s.setScript ms).cal = s.cal := rfl
@[simp] theorem State.setScript_phase (ms : List Move) : (s.setScript ms).phase = s.phase := rfl
@[simp] theorem State.setScript_params (ms : List Move) : (s.setScript ms).params = s.params := rfl
@[simp] theorem State.setScript_vsh (ms : List Move) : (s.setScript ms).vsh = s.vsh := rfl
@[simp] theorem State.setScript_vbus (ms : List Move) : (s.setScript ms).vbus = s.vbus := rfl
@[simp] theorem State.setScript_draws (ms : List Move) : (s.setScript ms).draws = s.draws := rfl
@[simp] theorem State.setScript_drawn (ms : List Move) : (s.setScript ms).drawn = s.drawn := rfl
@[simp] theorem State.setScript_script (ms : List Move) : (s.setScript ms).script = ms := rfl
@[simp] theorem State.setScript_resp (ms : List Move) : (s.setScript ms).resp = s.resp := rfl
@[simp] theorem State.setScript_bus (ms : List Move) : (s.setScript ms).bus = s.bus := rfl

@[simp] theorem State.useDraw_cfg : s.useDraw.cfg = s.cfg := rfl
@[simp] theorem State.useDraw_cal : s.useDraw.cal = s.cal := rfl
@[simp] theorem State.useDraw_phase : s.useDraw.phase = s.phase := rfl
@[simp] theorem State.useDraw_params : s.useDraw.params = s.params := rfl
@[simp] theorem State.useDraw_vsh : s.useDraw.vsh = s.vsh := rfl
@[simp] theorem State.useDraw_vbus : s.useDraw.vbus = s.vbus := rfl
@[simp] theorem State.useDraw_draws : s.useDraw.draws = s.draws.tail := rfl
@[simp] theorem State.useDraw_drawn : s.useDraw.drawn = s.drawn + 1 := rfl
@[simp] theorem State.useDraw_script : s.useDraw.script = s.script := rfl
@[simp] theorem State.useDraw_resp : s.useDraw.resp = s.resp := rfl
@[simp] theorem State.useDraw_bus : s.useDraw.bus = s.bus := rfl

@[simp] theorem State.answer_cfg (r : Response) : (s.answer r).cfg = s.cfg := rfl
@[simp] theorem State.answer_cal (r : Response) : (s.answer r).cal = s.cal := rfl
@[simp] theorem State.answer_phase (r : Response) : (s.answer r).phase = s.phase := rfl
@[simp] theorem State.answer_params (r : Response) : (s.answer r).params = s.params := rfl
@[simp] theorem State.answer_vsh (r : Response) : (s.answer r).vsh = s.vsh := rfl
@[simp] theorem State.answer_vbus (r : Response) : (s.answer r).vbus = s.vbus := rfl
@[simp] theorem State.answer_draws (r : Response) : (s.answer r).draws = s.draws := rfl
@[simp] theorem State.answer_drawn (r : Response) : (s.answer r).drawn = s.drawn := rfl
@[simp] theorem State.answer_script (r : Response) : (s.answer r).script = s.script := rfl
@[simp] theorem State.answer_resp (r : Response) : (s.answer r).resp = r := rfl
@[simp] theorem State.answer_bus (r : Response) : (s.answer r).bus = s.bus := rfl

@[simp] theorem State.addTxn_cfg (x : Txn) : (s.addTxn x).cfg = s.cfg := rfl
@[simp] theorem State.addTxn_cal (x : Txn) : (s.addTxn x).cal = s.cal := rfl
@[simp] theorem State.addTxn_phase (x : Txn) : (s.addTxn x).phase = s.phase := rfl
@[simp] theorem State.addTxn_params (x : Txn) : (s.addTxn x).params = s.params := rfl
@[simp] theorem State.addTxn_vsh (x : Txn) : (s.addTxn x).vsh = s.vsh := rfl
@[simp] theorem State.addTxn_vbus (x : Txn) : (s.addTxn x).vbus = s.vbus := rfl
@[simp] theorem State.addTxn_draws (x : Txn) : (s.addTxn x).draws = s.draws := rfl
@[simp] theorem State.addTxn_drawn (x : Txn) : (s.addTxn x).drawn = s.drawn := rfl
@[simp] theorem State.addTxn_script (x : Txn) : (s.addTxn x).script = s.script := rfl
@[simp] theorem State.addTxn_resp (x : Txn) : (s.addTxn x).resp = s.resp := rfl
@[simp] theorem State.addTxn_bus (x : Txn) : (s.addTxn x).bus = s.bus ++ [x] := rfl

@[simp] theorem State.begin_cfg : s.begin.cfg = s.cfg := rfl
@[simp] theorem State.begin_cal : s.begin.cal = s.cal := rfl
@[simp] theorem State.begin_phase : s.begin.phase = s.phase := rfl
@[simp] theorem State.begin_params : s.begin.params = s.params := rfl
@[simp] theorem State.begin_vsh : s.begin.vsh = s.vsh := rfl
@[simp] theorem State.begin_vbus : s.begin.vbus = s.vbus := rfl
@[simp] theorem State.begin_draws : s.begin.draws = s.draws := rfl
@[simp] theorem State.begin_drawn : s.begin.drawn = s.drawn := rfl
@[simp] theorem State.begin_script : s.begin.script = s.script := rfl
@[simp] theorem State.begin_resp : s.begin.resp = s.resp := rfl
@[simp] theorem State.begin_bus : s.begin.bus = [] := rfl

/-! ### Derived quantities after an update -/

@[simp] theorem State.setCfg_inputsAdmitted (v : Word) : (s.setCfg v).inputsAdmitted = s.inputsAdmitted := rfl
@[simp] theorem State.setCal_inputsAdmitted (v : Word) : (s.setCal v).inputsAdmitted = s.inputsAdmitted := rfl
@[simp] theorem State.setPhase_inputsAdmitted (p : Phase) : (s.setPhase p).inputsAdmitted = s.inputsAdmitted := rfl
@[simp] theorem State.setScript_inputsAdmitted (ms : List Move) : (s.setScript ms).inputsAdmitted = s.inputsAdmitted := rfl
@[simp] theorem State.useDraw_inputsAdmitted : s.useDraw.inputsAdmitted = s.inputsAdmitted := rfl
@[simp] theorem State.answer_inputsAdmitted (r : Response) : (s.answer r).inputsAdmitted = s.inputsAdmitted := rfl
@[simp] theorem State.addTxn_inputsAdmitted (x : Txn) : (s.addTxn x).inputsAdmitted = s.inputsAdmitted := rfl
@[simp] theorem State.begin_inputsAdmitted : s.begin.inputsAdmitted = s.inputsAdmitted := rfl

@[simp] theorem State.setCfg_shuntCode (v : Word) : (s.setCfg v).shuntCode = s.shuntCode := rfl
@[simp] theorem State.setCal_shuntCode (v : Word) : (s.setCal v).shuntCode = s.shuntCode := rfl
@[simp] theorem State.setPhase_shuntCode (p : Phase) : (s.setPhase p).shuntCode = s.shuntCode := rfl
@[simp] theorem State.setScript_shuntCode (ms : List Move) : (s.setScript ms).shuntCode = s.shuntCode := rfl
@[simp] theorem State.useDraw_shuntCode : s.useDraw.shuntCode = s.shuntCode := rfl
@[simp] theorem State.answer_shuntCode (r : Response) : (s.answer r).shuntCode = s.shuntCode := rfl
@[simp] theorem State.addTxn_shuntCode (x : Txn) : (s.addTxn x).shuntCode = s.shuntCode := rfl
@[simp] theorem State.begin_shuntCode : s.begin.shuntCode = s.shuntCode := rfl

@[simp] theorem State.setCfg_busQ (v : Word) : (s.setCfg v).busQ = s.busQ := rfl
@[simp] theorem State.setCal_busQ (v : Word) : (s.setCal v).busQ = s.busQ := rfl
@[simp] theorem State.setPhase_busQ (p : Phase) : (s.setPhase p).busQ = s.busQ := rfl
@[simp] theorem State.setScript_busQ (ms : List Move) : (s.setScript ms).busQ = s.busQ := rfl
@[simp] theorem State.useDraw_busQ : s.useDraw.busQ = s.busQ := rfl
@[simp] theorem State.answer_busQ (r : Response) : (s.answer r).busQ = s.busQ := rfl
@[simp] theorem State.addTxn_busQ (x : Txn) : (s.addTxn x).busQ = s.busQ := rfl
@[simp] theorem State.begin_busQ : s.begin.busQ = s.busQ := rfl

@[simp] theorem State.setCfg_currentCode (v : Word) : (s.setCfg v).currentCode = s.currentCode := rfl
@[simp] theorem State.setPhase_currentCode (p : Phase) : (s.setPhase p).currentCode = s.currentCode := rfl
@[simp] theorem State.setScript_currentCode (ms : List Move) : (s.setScript ms).currentCode = s.currentCode := rfl
@[simp] theorem State.useDraw_currentCode : s.useDraw.currentCode = s.currentCode := rfl
@[simp] theorem State.answer_currentCode (r : Response) : (s.answer r).currentCode = s.currentCode := rfl
@[simp] theorem State.addTxn_currentCode (x : Txn) : (s.addTxn x).currentCode = s.currentCode := rfl
@[simp] theorem State.begin_currentCode : s.begin.currentCode = s.currentCode := rfl

@[simp] theorem State.setCfg_powerCode (v : Word) : (s.setCfg v).powerCode = s.powerCode := rfl
@[simp] theorem State.setPhase_powerCode (p : Phase) : (s.setPhase p).powerCode = s.powerCode := rfl
@[simp] theorem State.setScript_powerCode (ms : List Move) : (s.setScript ms).powerCode = s.powerCode := rfl
@[simp] theorem State.useDraw_powerCode : s.useDraw.powerCode = s.powerCode := rfl
@[simp] theorem State.answer_powerCode (r : Response) : (s.answer r).powerCode = s.powerCode := rfl
@[simp] theorem State.addTxn_powerCode (x : Txn) : (s.addTxn x).powerCode = s.powerCode := rfl
@[simp] theorem State.begin_powerCode : s.begin.powerCode = s.powerCode := rfl

@[simp] theorem State.setCfg_nextDraw (v : Word) : (s.setCfg v).nextDraw = s.nextDraw := rfl
@[simp] theorem State.setCal_nextDraw (v : Word) : (s.setCal v).nextDraw = s.nextDraw := rfl
@[simp] theorem State.setPhase_nextDraw (p : Phase) : (s.setPhase p).nextDraw = s.nextDraw := rfl
@[simp] theorem State.setInputs_nextDraw (x y : Rat) : (s.setInputs x y).nextDraw = s.nextDraw := rfl
@[simp] theorem State.setScript_nextDraw (ms : List Move) : (s.setScript ms).nextDraw = s.nextDraw := rfl
@[simp] theorem State.answer_nextDraw (r : Response) : (s.answer r).nextDraw = s.nextDraw := rfl
@[simp] theorem State.addTxn_nextDraw (x : Txn) : (s.addTxn x).nextDraw = s.nextDraw := rfl
@[simp] theorem State.begin_nextDraw : s.begin.nextDraw = s.nextDraw := rfl

@[simp] theorem State.setCfg_portOk (v : Word) : (s.setCfg v).portOk = s.portOk := rfl
@[simp] theorem State.setCal_portOk (v : Word) : (s.setCal v).portOk = s.portOk := rfl
@[simp] theorem State.setPhase_portOk (p : Phase) : (s.setPhase p).portOk = s.portOk := rfl
@[simp] theorem State.setInputs_portOk (x y : Rat) : (s.setInputs x y).portOk = s.portOk := rfl
@[simp] theorem State.setScript_portOk (ms : List Move) : (s.setScript ms).portOk = s.portOk := rfl
@[simp] theorem State.answer_portOk (r : Response) : (s.answer r).portOk = s.portOk := rfl
@[simp] theorem State.addTxn_portOk (x : Txn) : (s.addTxn x).portOk = s.portOk := rfl
@[simp] theorem State.begin_portOk : s.begin.portOk = s.portOk := rfl

@[simp] theorem State.setPhase_pattern (p : Phase) (a : Addr) : (s.setPhase p).pattern a = s.pattern a := rfl
@[simp] theorem State.setScript_pattern (ms : List Move) (a : Addr) : (s.setScript ms).pattern a = s.pattern a := rfl
@[simp] theorem State.useDraw_pattern (a : Addr) : s.useDraw.pattern a = s.pattern a := rfl
@[simp] theorem State.answer_pattern (r : Response) (a : Addr) : (s.answer r).pattern a = s.pattern a := rfl
@[simp] theorem State.addTxn_pattern (x : Txn) (a : Addr) : (s.addTxn x).pattern a = s.pattern a := rfl
@[simp] theorem State.begin_pattern (a : Addr) : s.begin.pattern a = s.pattern a := rfl

/-! ### The state after a transaction's draw -/

/-- Making a draw touches the draws and their count only. -/
theorem State.afterDraw_eq : s.afterDraw = { s with draws := s.afterDraw.draws, drawn := s.afterDraw.drawn } := by
  unfold State.afterDraw; split <;> rfl

@[simp] theorem State.afterDraw_cfg : s.afterDraw.cfg = s.cfg := by rw [State.afterDraw_eq]
@[simp] theorem State.afterDraw_cal : s.afterDraw.cal = s.cal := by rw [State.afterDraw_eq]
@[simp] theorem State.afterDraw_phase : s.afterDraw.phase = s.phase := by rw [State.afterDraw_eq]
@[simp] theorem State.afterDraw_params : s.afterDraw.params = s.params := by rw [State.afterDraw_eq]
@[simp] theorem State.afterDraw_vsh : s.afterDraw.vsh = s.vsh := by rw [State.afterDraw_eq]
@[simp] theorem State.afterDraw_vbus : s.afterDraw.vbus = s.vbus := by rw [State.afterDraw_eq]
@[simp] theorem State.afterDraw_script : s.afterDraw.script = s.script := by rw [State.afterDraw_eq]
@[simp] theorem State.afterDraw_resp : s.afterDraw.resp = s.resp := by rw [State.afterDraw_eq]
@[simp] theorem State.afterDraw_bus : s.afterDraw.bus = s.bus := by rw [State.afterDraw_eq]
@[simp] theorem State.afterDraw_pattern (a : Addr) : s.afterDraw.pattern a = s.pattern a := by rw [State.afterDraw_eq]; rfl
@[simp] theorem State.afterDraw_inputsAdmitted : s.afterDraw.inputsAdmitted = s.inputsAdmitted := by rw [State.afterDraw_eq]; rfl

/-! A draw commutes with every update that leaves the parameters and the draws alone. -/

theorem State.setCfg_afterDraw (v : Word) : (s.setCfg v).afterDraw = s.afterDraw.setCfg v := by
  unfold State.afterDraw State.setCfg; cases s.params.port <;> rfl
theorem State.setCal_afterDraw (v : Word) : (s.setCal v).afterDraw = s.afterDraw.setCal v := by
  unfold State.afterDraw State.setCal; cases s.params.port <;> rfl
theorem State.setPhase_afterDraw (p : Phase) : (s.setPhase p).afterDraw = s.afterDraw.setPhase p := by
  unfold State.afterDraw State.setPhase; cases s.params.port <;> rfl
theorem State.setInputs_afterDraw (x y : Rat) : (s.setInputs x y).afterDraw = s.afterDraw.setInputs x y := by
  unfold State.afterDraw State.setInputs; cases s.params.port <;> rfl
theorem State.setScript_afterDraw (ms : List Move) : (s.setScript ms).afterDraw = s.afterDraw.setScript ms := by
  unfold State.afterDraw State.setScript; cases s.params.port <;> rfl
theorem State.answer_afterDraw (r : Response) : (s.answer r).afterDraw = s.afterDraw.answer r := by
  unfold State.afterDraw State.answer; cases s.params.port <;> rfl
theorem State.addTxn_afterDraw (x : Txn) : (s.addTxn x).afterDraw = s.afterDraw.addTxn x := by
  unfold State.afterDraw State.addTxn; cases s.params.port <;> rfl
theorem State.begin_afterDraw : s.begin.afterDraw = s.afterDraw.begin := by
  unfold State.afterDraw State.begin; cases s.params.port <;> rfl

/-! The same for any update that leaves the parameters, the draws and their count alone, all at once. -/

section update

variable (cfg cal : Word) (phase : Phase) (vsh vbus : Rat) (script : List Move) (resp : Response) (bus : List Txn)

theorem State.update_nextDraw : State.nextDraw { s with cfg, cal, phase, vsh, vbus, script, resp, bus } = s.nextDraw := rfl

theorem State.update_portOk : State.portOk { s with cfg, cal, phase, vsh, vbus, script, resp, bus } = s.portOk := rfl

theorem State.update_afterDraw : State.afterDraw { s with cfg, cal, phase, vsh, vbus, script, resp, bus } =
    { s.afterDraw with cfg, cal, phase, vsh, vbus, script, resp, bus } := by
  unfold State.afterDraw; cases s.params.port <;> rfl

end update

end Sys2Proof.Machine
end

