-- ==== Sys2Proof/Laws/Operands.lean ====
section
/-! SUPPORT. The arithmetic of Machine/Operands.lean: what each function gives, once. -/

namespace Sys2Proof.Machine

/-- The two bytes of a word compose to the word. -/
@[simp] theorem ofWire_bytes (v : Word) : ofWire (hiByte v) (loByte v) = v := by
  unfold ofWire hiByte loByte
  rw [BitVec.extractLsb'_append_extractLsb'_eq_extractLsb' (by decide)]
  exact BitVec.extractLsb'_eq_self

/-- `fdiv` by a positive divisor is Lean's floor division. -/
theorem fdiv_eq_ediv (a : Int) {b : Int} (hb : 0 ≤ b) : fdiv a b = a / b :=
  Int.fdiv_eq_ediv_of_nonneg a hb

theorem asr_eq_ediv (z : Int) (n : Nat) : asr z n = z / 2 ^ n :=
  fdiv_eq_ediv z (by positivity)

/-- `low16` keeps the residue modulo 65536. -/
theorem low16_toNat (z : Int) : ((low16 z).toNat : Int) = z % 65536 := by
  simp only [low16, BitVec.toNat_ofInt]
  omega

/-- Two codes have one pattern exactly when they differ by a multiple of 65536. -/
theorem low16_eq_iff (a b : Int) : low16 a = low16 b ↔ a % 65536 = b % 65536 := by
  rw [← BitVec.toNat_inj, ← Int.ofNat_inj, low16_toNat, low16_toNat]

theorem sext16_range (u : Word) : -32768 ≤ sext16 u ∧ sext16 u ≤ 32767 := by
  have := u.isLt
  unfold sext16; split <;> omega

theorem sext16_emod (u : Word) : sext16 u % 65536 = u.toNat := by
  have := u.isLt
  unfold sext16; split <;> omega

/-- `sext_16(low16(s)) = s` for an s16 (00_scope.md R12). -/
theorem sext16_low16 {z : Int} (h₁ : -32768 ≤ z) (h₂ : z ≤ 32767) : sext16 (low16 z) = z := by
  have h := low16_toNat z
  unfold sext16; split <;> omega

theorem wrap32_range (z : Int) : -2 ^ 31 ≤ wrap32 z ∧ wrap32 z ≤ 2 ^ 31 - 1 := by
  unfold wrap32; omega

theorem wrap32_emod (z : Int) : wrap32 z % 2 ^ 32 = z % 2 ^ 32 := by
  unfold wrap32; omega

/-- `wrap32` is the identity on an i32. -/
theorem wrap32_id {z : Int} (h₁ : -2 ^ 31 ≤ z) (h₂ : z ≤ 2 ^ 31 - 1) : wrap32 z = z := by
  unfold wrap32; omega

end Sys2Proof.Machine
end

