-- ==== Sys2Proof/Laws/Datapath.lean ====
section
/-! SUPPORT. The flag, the input domain and the codes: what each says, as propositions over integers. -/

namespace Sys2Proof.Machine

theorem isI32_iff (z : Int) : isI32 z = true ↔ -2 ^ 31 ≤ z ∧ z ≤ 2 ^ 31 - 1 := by
  rw [isI32, Bool.and_eq_true, decide_eq_true_iff, decide_eq_true_iff]

theorem ovf_iff (k : Int) : ovf k = true ↔ 32000 < k ∨ k < -32000 := by
  rw [ovf, Bool.or_eq_true, decide_eq_true_iff, decide_eq_true_iff]; rfl

theorem inputsAdmitted_iff (s : State) : s.inputsAdmitted = true ↔
    (-2 ^ 31 ≤ s.shuntCode ∧ s.shuntCode ≤ 2 ^ 31 - 1) ∧ -2 ^ 28 ≤ s.busQ ∧ s.busQ ≤ 2 ^ 28 - 1 := by
  rw [State.inputsAdmitted, inputsAdmitted, Bool.and_eq_true, Bool.and_eq_true, isI32_iff, decide_eq_true_iff,
    decide_eq_true_iff, and_assoc]
  rfl

theorem derivedAddr_iff (a : Addr) : derivedAddr a = true ↔ 1 ≤ a.toNat ∧ a.toNat ≤ 4 := by
  rw [derivedAddr, Bool.and_eq_true, decide_eq_true_iff, decide_eq_true_iff]

/-- A read is defined outside the derived registers, and at them on admitted inputs. -/
theorem readable_iff (s : State) (a : Addr) : s.readable a = true ↔
    (1 ≤ a.toNat ∧ a.toNat ≤ 4 → s.inputsAdmitted = true) := by
  rw [State.readable, Bool.or_eq_true, ← derivedAddr_iff]
  cases derivedAddr a <;> simp

/-- `wrap32` is the balanced residue modulo 2^32. -/
theorem wrap32_eq_bmod (z : Int) : wrap32 z = z.bmod (2 ^ 32) := by
  unfold wrap32; rw [Int.bmod_def]; norm_num; split <;> omega

/-- The signed reading is Lean's two's complement reading. -/
theorem sext16_eq_toInt (u : Word) : sext16 u = u.toInt := by
  unfold sext16; rw [BitVec.toInt_eq_toNat_cond]; split <;> split <;> omega

/-- `currentCode` always fits 20 bits (43_scaling_engine.md R192). -/
theorem currentCode_range (k : Int) (c : Word) : -2 ^ 19 ≤ currentCode k c ∧ currentCode k c ≤ 2 ^ 19 - 1 := by
  have := wrap32_range (k * c.toNat)
  simp only [currentCode, asr_eq_ediv, curProd]
  norm_num at *
  omega

/-- `busCode` is eight times `busQ`. -/
theorem busCode_eq (s : State) : busCode s.vbus = 8 * s.busQ := by
  simp only [busCode, shl, State.busQ]; ring

end Sys2Proof.Machine
end

