-- ==== Sys2Proof/Laws/Ops.lean ====
section
/-! SUPPORT. One spec lemma per shared operation of Machine/Ops.lean: everything it can do. -/

namespace Sys2Proof.Machine

variable (a : Addr) (v : Word) (s : State)

/-! ### Register writes -/

theorem addr_zero_iff : a.toNat = 0 ↔ a = 0 := by rw [← BitVec.toNat_inj]; simp

theorem addr_five_iff : a.toNat = 5 ↔ a = 5 := by rw [← BitVec.toNat_inj]; simp

/-- The three kinds of address a write can meet (43_scaling_engine.md R180 to R182). -/
theorem writeReg_eq : writeReg a v s =
    if a = 0 then s.setCfg (v &&& 0xBFFF) else if a = 5 then s.setCal (v &&& 0xFFFE) else s := by
  unfold writeReg
  split
  · next h => simp [(addr_zero_iff a).1 h, cfgWriteMask]
  · next h => simp [(addr_five_iff a).1 h, calWriteMask]
  · next h₀ h₅ =>
    rw [if_neg (fun h => h₀ ((addr_zero_iff a).2 h)), if_neg (fun h => h₅ ((addr_five_iff a).2 h))]

/-- A write touches the two stored registers only. -/
theorem writeReg_frame : writeReg a v s =
    { s with cfg := if a = 0 then v &&& 0xBFFF else s.cfg, cal := if a = 5 then v &&& 0xFFFE else s.cal } := by
  rw [writeReg_eq]
  by_cases h₀ : a = 0
  · subst h₀; rfl
  · by_cases h₅ : a = 5
    · subst h₅; rfl
    · simp only [if_neg h₀, if_neg h₅]

/-! ### Transactions -/

/-- The transaction a write leaves on the bus. -/
def writeTxn (a : Addr) (v : Word) (ok : Bool) : Txn := ⟨.write a (wireBytes v), if ok then some [] else none⟩

/-- The transaction a read leaves on the bus. -/
def readTxn (a : Addr) (p : Option Word) : Txn := ⟨.read a 2, p.map wireBytes⟩

/-- A write transaction completes, or fails with the data landed, or fails without. -/
theorem memWrite_eq : memWrite a v s =
    if s.portOk then .ok () ((writeReg a v s.afterDraw).addTxn (writeTxn a v true))
    else if s.nextDraw.failWriteLands then .failed ⟨.wr, a⟩ ((writeReg a v s.afterDraw).addTxn (writeTxn a v false))
    else .failed ⟨.wr, a⟩ (s.afterDraw.addTxn (writeTxn a v false)) := by
  have h := ofWire_bytes v
  unfold memWrite wireWrite wireBytes writeTxn
  simp only [h]
  rfl

/-- A read transaction completes with the pattern, is refused outside the domain, or fails. -/
theorem memRead_eq (op : PortOp) : memRead op a s =
    if s.portOk then
      if s.readable a then .ok (s.pattern a) (s.afterDraw.addTxn (readTxn a (some (s.pattern a))))
      else .refused .outOfDomain
    else .failed ⟨op, a⟩ (s.afterDraw.addTxn (readTxn a none)) := by
  unfold memRead wireRead readReg State.readable readTxn
  cases s.portOk <;> cases derivedAddr a <;> cases s.inputsAdmitted <;> simp

/-! ### Port commands -/

/-- What a WR does: nothing but the register, the draw, the answer and the bus. -/
theorem portWrite_eq : portWrite a v s =
    if s.portOk then
      .next { writeReg a v s.afterDraw with resp := .done, bus := [writeTxn a v true] }
    else if s.nextDraw.failWriteLands then
      .next { writeReg a v s.afterDraw with resp := .ioFailure ⟨.wr, a⟩, bus := [writeTxn a v false] }
    else .next { s.afterDraw with resp := .ioFailure ⟨.wr, a⟩, bus := [writeTxn a v false] } := by
  unfold portWrite
  rw [memWrite_eq]
  simp only [State.begin_portOk, State.begin_nextDraw, State.begin_afterDraw, writeReg_frame]
  cases s.portOk <;> cases s.nextDraw.failWriteLands <;> rfl

/-- A read command's common shape: the pattern through `k`, a refusal, or the failure. -/
theorem readFinish_eq (op : PortOp) (k : Word → Response) :
    (memRead op a s.begin).finish id (fun p t => t.answer (k p)) =
    if s.portOk then
      if s.readable a then
        .next { s.afterDraw with resp := k (s.pattern a), bus := [readTxn a (some (s.pattern a))] }
      else .refused .outOfDomain
    else .next { s.afterDraw with resp := .ioFailure ⟨op, a⟩, bus := [readTxn a none] } := by
  rw [memRead_eq, State.begin_portOk, State.begin_afterDraw, State.begin_pattern,
    show s.begin.readable a = s.readable a from rfl]
  cases s.portOk <;> cases s.readable a <;> rfl

/-- What a RDU does. -/
theorem portReadUnsigned_eq : portReadUnsigned a s =
    if s.portOk then
      if s.readable a then
        .next { s.afterDraw with resp := .unsigned (s.pattern a).toNat, bus := [readTxn a (some (s.pattern a))] }
      else .refused .outOfDomain
    else .next { s.afterDraw with resp := .ioFailure ⟨.rdu, a⟩, bus := [readTxn a none] } :=
  readFinish_eq a s .rdu fun p => .unsigned (zext16 p)

/-- What a RDS does. -/
theorem portReadSigned_eq : portReadSigned a s =
    if s.portOk then
      if s.readable a then
        .next { s.afterDraw with resp := .signed (sext16 (s.pattern a)), bus := [readTxn a (some (s.pattern a))] }
      else .refused .outOfDomain
    else .next { s.afterDraw with resp := .ioFailure ⟨.rds, a⟩, bus := [readTxn a none] } :=
  readFinish_eq a s .rds fun p => .signed (sext16 p)

/-- What a measurement does in READY. -/
theorem runMeasurement_ready {c : CalState} (op : PortOp) (scale : CalState → Word → Response) (h : s.phase = .ready c) :
    runMeasurement op a scale s =
    if s.portOk then
      if s.readable a then
        .next { s.afterDraw with resp := scale c (s.pattern a), bus := [readTxn a (some (s.pattern a))] }
      else .refused .outOfDomain
    else .next { s.afterDraw with resp := .ioFailure ⟨op, a⟩, bus := [readTxn a none] } := by
  rw [← readFinish_eq a s op (scale c)]
  simp only [runMeasurement, h]

/-- What a measurement does in every other phase. -/
theorem runMeasurement_not_ready (op : PortOp) (scale : CalState → Word → Response) (h : ∀ c, s.phase ≠ .ready c) :
    runMeasurement op a scale s = .refused .notReady := by
  unfold runMeasurement
  split <;> simp_all

/-! ### INIT -/

/-- Everything INIT's first transaction can do: complete, or fail with or without the data landed. -/
theorem startInit_eq (w : Word) (c : CalState) : startInit w c s =
    if s.portOk then
      .next { s.afterDraw with
        cfg := w &&& 0xBFFF, phase := .cfgWritten c, resp := .idle, bus := [writeTxn 0 w true] }
    else
      .next { s.afterDraw with
        cfg := if s.nextDraw.failWriteLands then w &&& 0xBFFF else s.cfg,
        phase := .failed, resp := .ioFailure ⟨.wr, 0⟩, bus := [writeTxn 0 w false] } := by
  unfold startInit initConfiguration
  simp only [memWrite_eq, State.setPhase_portOk, State.begin_portOk, State.setPhase_nextDraw, State.begin_nextDraw,
    State.setPhase_afterDraw, State.begin_afterDraw, writeReg_frame]
  cases s.portOk <;> cases s.nextDraw.failWriteLands <;>
    simp [State.addTxn, State.setPhase, State.begin, Reply.finish, raiseIOFailure, State.answer]

/-- Everything INIT's second transaction can do. It joins the first on the bus. -/
theorem continueInit_eq (c : CalState) : continueInit c s =
    if s.portOk then
      .next { s.afterDraw with
        cal := c.calVal &&& 0xFFFE, phase := .ready c, resp := .done, bus := s.bus ++ [writeTxn 5 c.calVal true] }
    else
      .next { s.afterDraw with
        cal := if s.nextDraw.failWriteLands then c.calVal &&& 0xFFFE else s.cal,
        phase := .failed, resp := .ioFailure ⟨.wr, 5⟩, bus := s.bus ++ [writeTxn 5 c.calVal false] } := by
  unfold continueInit initCalibration
  simp only [memWrite_eq, writeReg_frame]
  cases s.portOk <;> cases s.nextDraw.failWriteLands <;>
    simp [State.addTxn, State.setPhase, Reply.finish, raiseIOFailure, State.answer]

theorem inInit_iff : s.inInit = true ↔ ∃ c, s.phase = .cfgWritten c := by
  unfold State.inInit; cases s.phase <;> simp

/-- Inside INIT the sequencer issues the second transaction. -/
theorem proceed_cfgWritten {c : CalState} (h : s.phase = .cfgWritten c) : proceed s = continueInit c s := by
  simp only [proceed, h]

/-- Outside INIT it has nothing to issue. -/
theorem proceed_outside (h : s.inInit = false) : proceed s = .next s := by
  unfold State.inInit at h
  unfold proceed
  cases hp : s.phase <;> simp_all

end Sys2Proof.Machine
end

