-- ==== Sys2Proof/Laws/Exec.lean ====
section
/-! SUPPORT. `exec` by the access an instruction makes: one lemma per kind, so that a claim about all
rows of a command is proved once; and what one step can do. -/

namespace Sys2Proof.Machine

/-- The address a row stands for is the number `Instr.access` gives: its lowest address plus its free
bits (30_encoding.md R94). -/
theorem unmapped6_addr : ∀ a : BitVec 1, (AddrRow.unmapped6 a).addr = BitVec.ofNat 8 (6 + a.toNat) := by decide

theorem unmapped8_addr : ∀ a : BitVec 3, (AddrRow.unmapped8 a).addr = BitVec.ofNat 8 (8 + a.toNat) := by decide

theorem unmapped16_addr : ∀ a : BitVec 4, (AddrRow.unmapped16 a).addr = BitVec.ofNat 8 (16 + a.toNat) := by decide

theorem unmapped32_addr : ∀ a : BitVec 5, (AddrRow.unmapped32 a).addr = BitVec.ofNat 8 (32 + a.toNat) := by decide

theorem unmapped64_addr : ∀ a : BitVec 6, (AddrRow.unmapped64 a).addr = BitVec.ofNat 8 (64 + a.toNat) := by
  decide +kernel

theorem unmapped128_addr : ∀ a : BitVec 7, (AddrRow.unmapped128 a).addr = BitVec.ofNat 8 (128 + a.toNat) := by
  decide +kernel

variable {i : Instr} {a : Addr}

/-- Every row of WR is `portWrite` at its address. -/
theorem exec_of_write {v : Word} (h : i.access = .write a v) (s : State) : exec i s = portWrite a v s := by
  cases i <;> simp only [Instr.access, Access.write.injEq, reduceCtorEq] at h <;> obtain ⟨rfl, rfl⟩ := h <;>
    first
      | rfl
      | rw [← unmapped6_addr]; rfl
      | rw [← unmapped8_addr]; rfl
      | rw [← unmapped16_addr]; rfl
      | rw [← unmapped32_addr]; rfl
      | rw [← unmapped64_addr]; rfl
      | rw [← unmapped128_addr]; rfl

/-- Every row of RDU is `portReadUnsigned` at its address. -/
theorem exec_of_readUnsigned (h : i.access = .readUnsigned a) (s : State) : exec i s = portReadUnsigned a s := by
  cases i <;> simp only [Instr.access, Access.readUnsigned.injEq, reduceCtorEq] at h <;> subst h <;>
    first
      | rfl
      | rw [← unmapped6_addr]; rfl
      | rw [← unmapped8_addr]; rfl
      | rw [← unmapped16_addr]; rfl
      | rw [← unmapped32_addr]; rfl
      | rw [← unmapped64_addr]; rfl
      | rw [← unmapped128_addr]; rfl

/-- Every row of RDS is `portReadSigned` at its address. -/
theorem exec_of_readSigned (h : i.access = .readSigned a) (s : State) : exec i s = portReadSigned a s := by
  cases i <;> simp only [Instr.access, Access.readSigned.injEq, reduceCtorEq] at h <;> subst h <;>
    first
      | rfl
      | rw [← unmapped6_addr]; rfl
      | rw [← unmapped8_addr]; rfl
      | rw [← unmapped16_addr]; rfl
      | rw [← unmapped32_addr]; rfl
      | rw [← unmapped64_addr]; rfl
      | rw [← unmapped128_addr]; rfl

/-- A measurement is `runMeasurement` at its operation and address, with a scaling that answers a triple. -/
theorem exec_of_measurement {op : PortOp} (h : i.access = .measurement op a) (s : State) :
    ∃ scale : CalState → Word → Response, exec i s = runMeasurement op a scale s ∧
      ∀ c p, ∃ code weight, scale c p = measured code weight := by
  cases i <;> simp only [Instr.access, Access.measurement.injEq, reduceCtorEq] at h <;> obtain ⟨rfl, rfl⟩ := h <;>
    exact ⟨_, rfl, fun _ _ => ⟨_, _, rfl⟩⟩

/-- INIT is the operand check and `startInit`. -/
theorem exec_of_initialise (h : i.access = .initialise) (s : State) :
    exec i s = .refused .badOperand ∨
      ∃ rsh imax range gain badc sadc, 0 < rsh ∧ 0 < imax ∧
        exec i s = startInit (cfgPack range gain badc sadc) (CalState.compute rsh imax) s := by
  cases i <;> simp only [Instr.access, reduceCtorEq] at h
  simp only [exec, execInit]
  split
  · next hp =>
    split
    · exact .inr ⟨_, _, _, _, _, _, hp.1, hp.2, rfl⟩
    · exact .inl rfl
  · exact .inl rfl

/-- The access of an instruction is one of the five kinds, named. -/
theorem Instr_access_cases (i : Instr) :
    (∃ a v, i.access = .write a v) ∨ (∃ a, i.access = .readUnsigned a) ∨ (∃ a, i.access = .readSigned a) ∨
      i.access = .initialise ∨ ∃ op a, i.access = .measurement op a := by
  cases h : i.access <;> simp

/-! ### What a command that ends can have done -/

/-- A WR that ends has written its register or has not, and touches nothing else. -/
theorem portWrite_next {v : Word} {s t : State} (h : portWrite a v s = .next t) :
    ∃ r x, (t = { writeReg a v s.afterDraw with resp := r, bus := [x] } ∨ t = { s.afterDraw with resp := r, bus := [x] }) ∧
      (r = .done ∧ s.portOk = true ∨ r = .ioFailure ⟨.wr, a⟩ ∧ s.portOk = false) ∧
      ∃ ans, x = ⟨.write a (wireBytes v), ans⟩ := by
  rw [portWrite_eq] at h
  split at h
  · next hp => cases h; exact ⟨_, _, .inl rfl, .inl ⟨rfl, hp⟩, _, rfl⟩
  · next hp =>
    split at h
    · cases h; exact ⟨_, _, .inl rfl, .inr ⟨rfl, by simpa using hp⟩, _, rfl⟩
    · cases h; exact ⟨_, _, .inr rfl, .inr ⟨rfl, by simpa using hp⟩, _, rfl⟩

/-- A read that ends has returned the pattern or failed, and touches nothing else. -/
theorem readFinish_next {op : PortOp} {k : Word → Response} {s t : State}
    (h : (memRead op a s.begin).finish id (fun p t => t.answer (k p)) = .next t) :
    (s.portOk = true ∧ s.readable a = true ∧
      t = { s.afterDraw with resp := k (s.pattern a), bus := [readTxn a (some (s.pattern a))] }) ∨
    (s.portOk = false ∧ t = { s.afterDraw with resp := .ioFailure ⟨op, a⟩, bus := [readTxn a none] }) := by
  rw [readFinish_eq] at h
  split at h
  · next hp =>
    split at h
    · next hr => cases h; exact .inl ⟨hp, hr, rfl⟩
    · cases h
  · next hp => cases h; exact .inr ⟨by simpa using hp, rfl⟩

/-- A measurement that ends started in READY and is a read. -/
theorem runMeasurement_next {op : PortOp} {scale : CalState → Word → Response} {s t : State}
    (h : runMeasurement op a scale s = .next t) :
    ∃ c, s.phase = .ready c ∧ (memRead op a s.begin).finish id (fun p t => t.answer (scale c p)) = .next t := by
  unfold runMeasurement at h
  split at h
  · exact ⟨_, by assumption, h⟩
  all_goals cases h

/-- The step in which INIT is issued has done its first write, or failed at it. -/
theorem startInit_next {w : Word} {c : CalState} {s t : State} (h : startInit w c s = .next t) :
    (s.portOk = true ∧ t = { s.afterDraw with
      cfg := w &&& 0xBFFF, phase := .cfgWritten c, resp := .idle, bus := [writeTxn 0 w true] }) ∨
    (s.portOk = false ∧ ∃ k, (k = s.cfg ∨ k = w &&& 0xBFFF) ∧ t = { s.afterDraw with
      cfg := k, phase := .failed, resp := .ioFailure ⟨.wr, 0⟩, bus := [writeTxn 0 w false] }) := by
  rw [startInit_eq] at h
  split at h
  · next hp => cases h; exact .inl ⟨hp, rfl⟩
  · next hp => cases h; exact .inr ⟨by simpa using hp, _, by split <;> simp, rfl⟩

/-- The step in which the sequencer goes on has done nothing, or INIT's second write, or failed at it. -/
theorem proceed_next {s t : State} (h : proceed s = .next t) :
    (s.inInit = false ∧ t = s) ∨
    (∃ c, s.phase = .cfgWritten c ∧ s.portOk = true ∧ t = { s.afterDraw with
      cal := c.calVal &&& 0xFFFE, phase := .ready c, resp := .done, bus := s.bus ++ [writeTxn 5 c.calVal true] }) ∨
    (∃ c k, s.phase = .cfgWritten c ∧ s.portOk = false ∧ (k = s.cal ∨ k = c.calVal &&& 0xFFFE) ∧
      t = { s.afterDraw with
        cal := k, phase := .failed, resp := .ioFailure ⟨.wr, 5⟩, bus := s.bus ++ [writeTxn 5 c.calVal false] }) := by
  cases hi : s.inInit with
  | false => rw [proceed_outside s hi] at h; cases h; exact .inl ⟨rfl, rfl⟩
  | true =>
    obtain ⟨c, hc⟩ := (inInit_iff s).1 hi
    rw [proceed_cfgWritten s hc, continueInit_eq] at h
    split at h
    · next hp => cases h; exact .inr (.inl ⟨c, hc, hp, rfl⟩)
    · next hp => cases h; exact .inr (.inr ⟨c, _, hc, by simpa using hp, by split <;> simp, rfl⟩)

/-- A read or a measurement that ends changes the draws, the answer and the bus only. -/
theorem exec_read_next {s t : State}
    (hi : i.access = .readUnsigned a ∨ i.access = .readSigned a ∨ ∃ op, i.access = .measurement op a)
    (h : exec i s = .next t) : ∃ r x, t = { s.afterDraw with resp := r, bus := [x] } := by
  have key : ∀ {op : PortOp} {k : Word → Response},
      (memRead op a s.begin).finish id (fun p t => t.answer (k p)) = .next t →
      ∃ r x, t = { s.afterDraw with resp := r, bus := [x] } := by
    intro op k h
    rcases readFinish_next h with ⟨-, -, rfl⟩ | ⟨-, rfl⟩ <;> exact ⟨_, _, rfl⟩
  rcases hi with hi | hi | ⟨op, hi⟩
  · rw [exec_of_readUnsigned hi] at h; exact key h
  · rw [exec_of_readSigned hi] at h; exact key h
  · obtain ⟨scale, e, -⟩ := exec_of_measurement hi s
    rw [e] at h
    obtain ⟨c, -, h⟩ := runMeasurement_next h
    exact key h

/-- A move that need not wait is what the step does. -/
theorem step_cons {s : State} {m : Move} {ms : List Move} (h : s.script = m :: ms) (hw : (s.inInit && m.byCaller) = false) :
    step s = runMove m (s.setScript ms) := by
  simp only [step, runNext, h, hw]; rfl

/-- A move of the blocked caller waits, and the sequencer goes on. -/
theorem step_waits {s : State} {m : Move} {ms : List Move} (h : s.script = m :: ms) (hi : s.inInit = true)
    (hm : m.byCaller = true) : step s = proceed s := by
  simp only [step, runNext, h, hi, hm]; rfl

/-- With no move left the sequencer goes on. -/
theorem step_nil {s : State} (h : s.script = []) : step s = proceed s := by
  simp only [step, runNext, h]

end Sys2Proof.Machine
end

