-- ==== Sys2Proof/Laws/PerInstr.lean ====
section
/-! SUPPORT. A fact about every instruction as syntax: its encoded word carries the fixed bits of its
row of spec/opcode_table.json (`match` under `mask`, transcribed here from that file). -/

namespace Sys2Proof.Laws.RowBits

/-- The `mask` and `match` columns of the instruction's row. -/
def row : Instr → Nat × Nat
  | .wrConfiguration _ => (0x3FF0000, 0x0000000)
  | .wrShuntVoltage _ => (0x3FF0000, 0x0010000)
  | .wrBusVoltage _ => (0x3FF0000, 0x0020000)
  | .wrPower _ => (0x3FF0000, 0x0030000)
  | .wrCurrent _ => (0x3FF0000, 0x0040000)
  | .wrCalibration _ => (0x3FF0000, 0x0050000)
  | .wrUnmapped6 _ _ => (0x3FE0000, 0x0060000)
  | .wrUnmapped8 _ _ => (0x3F80000, 0x0080000)
  | .wrUnmapped16 _ _ => (0x3F00000, 0x0100000)
  | .wrUnmapped32 _ _ => (0x3E00000, 0x0200000)
  | .wrUnmapped64 _ _ => (0x3C00000, 0x0400000)
  | .wrUnmapped128 _ _ => (0x3800000, 0x0800000)
  | .rduConfiguration => (0x3FF0000, 0x1000000)
  | .rduShuntVoltage => (0x3FF0000, 0x1010000)
  | .rduBusVoltage => (0x3FF0000, 0x1020000)
  | .rduPower => (0x3FF0000, 0x1030000)
  | .rduCurrent => (0x3FF0000, 0x1040000)
  | .rduCalibration => (0x3FF0000, 0x1050000)
  | .rduUnmapped6 _ => (0x3FE0000, 0x1060000)
  | .rduUnmapped8 _ => (0x3F80000, 0x1080000)
  | .rduUnmapped16 _ => (0x3F00000, 0x1100000)
  | .rduUnmapped32 _ => (0x3E00000, 0x1200000)
  | .rduUnmapped64 _ => (0x3C00000, 0x1400000)
  | .rduUnmapped128 _ => (0x3800000, 0x1800000)
  | .rdsConfiguration => (0x3FF0000, 0x2000000)
  | .rdsShuntVoltage => (0x3FF0000, 0x2010000)
  | .rdsBusVoltage => (0x3FF0000, 0x2020000)
  | .rdsPower => (0x3FF0000, 0x2030000)
  | .rdsCurrent => (0x3FF0000, 0x2040000)
  | .rdsCalibration => (0x3FF0000, 0x2050000)
  | .rdsUnmapped6 _ => (0x3FE0000, 0x2060000)
  | .rdsUnmapped8 _ => (0x3F80000, 0x2080000)
  | .rdsUnmapped16 _ => (0x3F00000, 0x2100000)
  | .rdsUnmapped32 _ => (0x3E00000, 0x2200000)
  | .rdsUnmapped64 _ => (0x3C00000, 0x2400000)
  | .rdsUnmapped128 _ => (0x3800000, 0x2800000)
  | .init _ _ _ _ _ _ => (0x3800, 0x0000)
  | .getsv => (0x3800, 0x0800)
  | .getbv => (0x3800, 0x1000)
  | .geti => (0x3800, 0x1800)
  | .getp => (0x3800, 0x2000)

/-- The word of a command, as one number. -/
def wordOf : Command → Nat
  | .port w => w.toNat
  | .seq w _ _ => w.toNat

/-- The encoded word agrees with the row's fixed bits. -/
abbrev Statement (i : Instr) : Prop := wordOf (encode i) &&& (row i).1 = (row i).2

/-- The fixed bits of a format P word are those of its operation and address row. -/
theorem portWord_fixed (op : BitVec 2) (r : AddrRow) (data : Word) (mask : Nat) (hm : mask % 65536 = 0) :
    wordOf (portWord op r data) &&& mask = wordOf (portWord op r 0) &&& mask := by
  obtain ⟨k, rfl⟩ : ∃ k, mask = k <<< 16 := ⟨mask / 65536, by rw [Nat.shiftLeft_eq]; omega⟩
  apply Nat.eq_of_testBit_eq
  intro j
  by_cases hj : j < 16
  · simp [Nat.testBit_and, Nat.testBit_shiftLeft, Nat.not_le.2 hj]
  · simp only [Nat.testBit_and, wordOf, portWord, BitVec.testBit_toNat, BitVec.getLsbD_append, if_neg hj]

/-- The fixed bits of a format S word are its command code. -/
theorem seqWord_fixed (cmd : BitVec 3) (r : BitVec 1) (g : BitVec 2) (b d : BitVec 4) :
    (seqWord cmd r g b d).toNat &&& 0x3800 = (cmd.toNat <<< 11) &&& 0x3800 := by
  revert cmd r g b d
  decide +kernel

theorem wrConfiguration (data : Word) : Statement (.wrConfiguration data) :=
  (portWord_fixed 0 (.named .configuration) data 0x3FF0000 rfl).trans (by decide : Statement (.wrConfiguration 0))

theorem wrShuntVoltage (data : Word) : Statement (.wrShuntVoltage data) :=
  (portWord_fixed 0 (.named .shuntVoltage) data 0x3FF0000 rfl).trans (by decide : Statement (.wrShuntVoltage 0))

theorem wrBusVoltage (data : Word) : Statement (.wrBusVoltage data) :=
  (portWord_fixed 0 (.named .busVoltage) data 0x3FF0000 rfl).trans (by decide : Statement (.wrBusVoltage 0))

theorem wrPower (data : Word) : Statement (.wrPower data) :=
  (portWord_fixed 0 (.named .power) data 0x3FF0000 rfl).trans (by decide : Statement (.wrPower 0))

theorem wrCurrent (data : Word) : Statement (.wrCurrent data) :=
  (portWord_fixed 0 (.named .current) data 0x3FF0000 rfl).trans (by decide : Statement (.wrCurrent 0))

theorem wrCalibration (data : Word) : Statement (.wrCalibration data) :=
  (portWord_fixed 0 (.named .calibration) data 0x3FF0000 rfl).trans (by decide : Statement (.wrCalibration 0))

theorem wrUnmapped6 (a : BitVec 1) (data : Word) : Statement (.wrUnmapped6 a data) :=
  (portWord_fixed 0 (.unmapped6 a) data 0x3FE0000 rfl).trans ((by decide +kernel : ∀ a, Statement (.wrUnmapped6 a 0)) a)

theorem wrUnmapped8 (a : BitVec 3) (data : Word) : Statement (.wrUnmapped8 a data) :=
  (portWord_fixed 0 (.unmapped8 a) data 0x3F80000 rfl).trans ((by decide +kernel : ∀ a, Statement (.wrUnmapped8 a 0)) a)

theorem wrUnmapped16 (a : BitVec 4) (data : Word) : Statement (.wrUnmapped16 a data) :=
  (portWord_fixed 0 (.unmapped16 a) data 0x3F00000 rfl).trans ((by decide +kernel : ∀ a, Statement (.wrUnmapped16 a 0)) a)

theorem wrUnmapped32 (a : BitVec 5) (data : Word) : Statement (.wrUnmapped32 a data) :=
  (portWord_fixed 0 (.unmapped32 a) data 0x3E00000 rfl).trans ((by decide +kernel : ∀ a, Statement (.wrUnmapped32 a 0)) a)

theorem wrUnmapped64 (a : BitVec 6) (data : Word) : Statement (.wrUnmapped64 a data) :=
  (portWord_fixed 0 (.unmapped64 a) data 0x3C00000 rfl).trans ((by decide +kernel : ∀ a, Statement (.wrUnmapped64 a 0)) a)

theorem wrUnmapped128 (a : BitVec 7) (data : Word) : Statement (.wrUnmapped128 a data) :=
  (portWord_fixed 0 (.unmapped128 a) data 0x3800000 rfl).trans ((by decide +kernel : ∀ a, Statement (.wrUnmapped128 a 0)) a)

theorem rduConfiguration : Statement .rduConfiguration := by decide

theorem rduShuntVoltage : Statement .rduShuntVoltage := by decide

theorem rduBusVoltage : Statement .rduBusVoltage := by decide

theorem rduPower : Statement .rduPower := by decide

theorem rduCurrent : Statement .rduCurrent := by decide

theorem rduCalibration : Statement .rduCalibration := by decide

theorem rduUnmapped6 (a : BitVec 1) : Statement (.rduUnmapped6 a) := by
  revert a; decide +kernel

theorem rduUnmapped8 (a : BitVec 3) : Statement (.rduUnmapped8 a) := by
  revert a; decide +kernel

theorem rduUnmapped16 (a : BitVec 4) : Statement (.rduUnmapped16 a) := by
  revert a; decide +kernel

theorem rduUnmapped32 (a : BitVec 5) : Statement (.rduUnmapped32 a) := by
  revert a; decide +kernel

theorem rduUnmapped64 (a : BitVec 6) : Statement (.rduUnmapped64 a) := by
  revert a; decide +kernel

theorem rduUnmapped128 (a : BitVec 7) : Statement (.rduUnmapped128 a) := by
  revert a; decide +kernel

theorem rdsConfiguration : Statement .rdsConfiguration := by decide

theorem rdsShuntVoltage : Statement .rdsShuntVoltage := by decide

theorem rdsBusVoltage : Statement .rdsBusVoltage := by decide

theorem rdsPower : Statement .rdsPower := by decide

theorem rdsCurrent : Statement .rdsCurrent := by decide

theorem rdsCalibration : Statement .rdsCalibration := by decide

theorem rdsUnmapped6 (a : BitVec 1) : Statement (.rdsUnmapped6 a) := by
  revert a; decide +kernel

theorem rdsUnmapped8 (a : BitVec 3) : Statement (.rdsUnmapped8 a) := by
  revert a; decide +kernel

theorem rdsUnmapped16 (a : BitVec 4) : Statement (.rdsUnmapped16 a) := by
  revert a; decide +kernel

theorem rdsUnmapped32 (a : BitVec 5) : Statement (.rdsUnmapped32 a) := by
  revert a; decide +kernel

theorem rdsUnmapped64 (a : BitVec 6) : Statement (.rdsUnmapped64 a) := by
  revert a; decide +kernel

theorem rdsUnmapped128 (a : BitVec 7) : Statement (.rdsUnmapped128 a) := by
  revert a; decide +kernel

theorem init (rsh imax : Rat) (range : BitVec 1) (gain : BitVec 2) (badc sadc : BitVec 4) : Statement (.init rsh imax range gain badc sadc) :=
  seqWord_fixed 0 range gain badc sadc

theorem getsv : Statement .getsv := by decide

theorem getbv : Statement .getbv := by decide

theorem geti : Statement .geti := by decide

theorem getp : Statement .getp := by decide

end Sys2Proof.Laws.RowBits
end

