-- ==== Sys2Proof/Laws/Step.lean ====
section
/-! SUPPORT. What one command and one step can do, said once: frames over every instruction, and the
inversion of `step` by the move it makes. -/

namespace Sys2Proof.Machine

variable {s t : State} {a : Addr} {v : Word}

/-- What a WR that ends leaves of the registers, the sequencer, the parameters and the script. -/
theorem portWrite_regs (h : portWrite a v s = .next t) :
    t.params = s.params ∧ t.script = s.script ∧ t.phase = s.phase ∧
      (t.cfg = s.cfg ∨ a = 0 ∧ t.cfg = v &&& 0xBFFF) ∧ (t.cal = s.cal ∨ a = 5 ∧ t.cal = v &&& 0xFFFE) := by
  obtain ⟨r, x, h | h, -⟩ := portWrite_next h <;> subst h
  · rw [writeReg_frame, State.afterDraw_eq]
    refine ⟨rfl, rfl, rfl, ?_, ?_⟩
    · show (if a = 0 then v &&& 0xBFFF else s.cfg) = s.cfg ∨ a = 0 ∧ (if a = 0 then v &&& 0xBFFF else s.cfg) = v &&& 0xBFFF
      split <;> simp_all
    · show (if a = 5 then v &&& 0xFFFE else s.cal) = s.cal ∨ a = 5 ∧ (if a = 5 then v &&& 0xFFFE else s.cal) = v &&& 0xFFFE
      split <;> simp_all
  · rw [State.afterDraw_eq]
    exact ⟨rfl, rfl, rfl, .inl rfl, .inl rfl⟩

/-- What a RDU that ends leaves. -/
theorem portReadUnsigned_regs (h : portReadUnsigned a s = .next t) :
    t.params = s.params ∧ t.script = s.script ∧ t.phase = s.phase ∧ t.cfg = s.cfg ∧ t.cal = s.cal := by
  rcases readFinish_next h with ⟨-, -, rfl⟩ | ⟨-, rfl⟩ <;> rw [State.afterDraw_eq] <;> exact ⟨rfl, rfl, rfl, rfl, rfl⟩

/-- What no instruction changes when it ends: the parameters and the script; and the phase, unless it is INIT. -/
theorem exec_frame {i : Instr} (h : exec i s = .next t) :
    t.params = s.params ∧ t.script = s.script ∧ (i.access ≠ .initialise → t.phase = s.phase) := by
  rcases Instr_access_cases i with ⟨a, v, hi⟩ | ⟨a, hi⟩ | ⟨a, hi⟩ | hi | ⟨op, a, hi⟩
  · rw [exec_of_write hi] at h
    obtain ⟨h₁, h₂, h₃, -⟩ := portWrite_regs h
    exact ⟨h₁, h₂, fun _ => h₃⟩
  · obtain ⟨r, x, rfl⟩ := exec_read_next (.inl hi) h
    rw [State.afterDraw_eq]; exact ⟨rfl, rfl, fun _ => rfl⟩
  · obtain ⟨r, x, rfl⟩ := exec_read_next (.inr (.inl hi)) h
    rw [State.afterDraw_eq]; exact ⟨rfl, rfl, fun _ => rfl⟩
  · rcases exec_of_initialise hi s with e | ⟨rsh, imax, r, g, b, d, -, -, e⟩
    · rw [e] at h; cases h
    · rw [e] at h
      rcases startInit_next h with ⟨-, rfl⟩ | ⟨-, k, -, rfl⟩ <;>
        exact ⟨by simp, by simp, fun hh => absurd hi hh⟩
  · obtain ⟨r, x, rfl⟩ := exec_read_next (.inr (.inr ⟨_, hi⟩)) h
    rw [State.afterDraw_eq]; exact ⟨rfl, rfl, fun _ => rfl⟩

/-- A byte write that ends moved two bytes and is the WR of their word. -/
theorem transfer_write_next {bytes : List Byte} (h : transferBytes (.write a bytes) s = .next t) :
    ∃ hi lo : Byte, bytes = [hi, lo] ∧ portWrite a (hi ++ lo) s = .next t := by
  rcases bytes with _ | ⟨hi, _ | ⟨lo, _ | ⟨z, r⟩⟩⟩
  · cases h
  · cases h
  · refine ⟨hi, lo, rfl, ?_⟩
    have e : wireBytes (hi ++ lo) = [hi, lo] := by
      unfold wireBytes hiByte loByte
      rw [BitVec.extractLsb'_append_eq_left, BitVec.extractLsb'_append_eq_right]
    rw [← h]
    unfold portWrite memWrite
    rw [e]
    rfl
  · cases h

/-- A byte read that ends is the RDU of its address. -/
theorem transfer_read_next {n : Nat} (h : transferBytes (.read a n) s = .next t) : portReadUnsigned a s = .next t := by
  by_cases hn : n = 2
  · subst hn; exact h
  · simp only [transferBytes, wireRead, if_neg hn] at h; cases h

/-- Everything a step that ends can have done: the sequencer went on, with no move taken or on its own move, or the
head of the script was taken, outside INIT if it is the caller's. -/
theorem step_next (h : step s = .next t) :
    (proceed s = .next t ∧ ∀ m ∈ s.script.head?, s.inInit = true ∧ m.byCaller = true) ∨
    ∃ m ms, s.script = m :: ms ∧
      ((s.inInit = false ∧ ∃ c i, m = .cmd c ∧ decode c = .ok i ∧ exec i (s.setScript ms) = .next t) ∨
      (s.inInit = false ∧ ∃ a hi lo, m = .transfer (.write a [hi, lo]) ∧ portWrite a (hi ++ lo) (s.setScript ms) = .next t) ∨
      (s.inInit = false ∧ ∃ a n, m = .transfer (.read a n) ∧ portReadUnsigned a (s.setScript ms) = .next t) ∨
      (∃ x y, m = .env x y ∧ t = (s.setScript ms).setInputs x y) ∨
      (m = .resetBlock ∧ t = resetBlock (s.setScript ms)) ∨
      (m = .resetSequencer ∧ t = resetSequencer (s.setScript ms)) ∨
      (m = .proceed ∧ proceed (s.setScript ms) = .next t)) := by
  cases hs : s.script with
  | nil => rw [step_nil hs] at h; exact .inl ⟨h, by simp⟩
  | cons m ms =>
    cases hw : s.inInit && m.byCaller with
    | true =>
      rw [Bool.and_eq_true] at hw
      rw [step_waits hs hw.1 hw.2] at h
      exact .inl ⟨h, by simpa using hw⟩
    | false =>
      refine .inr ⟨m, ms, rfl, ?_⟩
      rw [step_cons hs hw] at h
      cases m with
      | cmd c =>
        simp only [runMove, runCommand] at h
        split at h
        · exact .inl ⟨by simpa [Move.byCaller] using hw, _, _, rfl, by assumption, h⟩
        · cases h
      | transfer tr =>
        have hi : s.inInit = false := by simpa [Move.byCaller] using hw
        cases tr with
        | write a b =>
          obtain ⟨x, y, rfl, e⟩ := transfer_write_next h
          exact .inr (.inl ⟨hi, _, _, _, rfl, e⟩)
        | read a n => exact .inr (.inr (.inl ⟨hi, _, _, rfl, transfer_read_next h⟩))
      | env x y => cases h; exact .inr (.inr (.inr (.inl ⟨_, _, rfl, rfl⟩)))
      | clash a b => cases h
      | resetBlock => cases h; exact .inr (.inr (.inr (.inr (.inl ⟨rfl, rfl⟩))))
      | resetSequencer => cases h; exact .inr (.inr (.inr (.inr (.inr (.inl ⟨rfl, rfl⟩)))))
      | proceed => exact .inr (.inr (.inr (.inr (.inr (.inr ⟨rfl, h⟩)))))

end Sys2Proof.Machine
end

