-- ==== Sys2Proof/Tests/Slice0.lean ====
section
/-! SUPPORT. Tests: words and results written out from the spec (spec/95_test_vectors.md, sets E3 to E6, V-…), and
for every statement with hypotheses a state and operands that meet them. -/

namespace Sys2Proof.Tests

open Sys2Proof.Machine

/-! ### Helpers -/

/-- A decoder's answer is the instruction `i`. -/
def decodesTo (c : Command) (i : Instr) : Bool :=
  match decode c with
  | .ok j => j == i
  | .error _ => false

/-- The next state, if there is one. -/
def nextOf (r : Result State) : Option State :=
  match r with
  | .next t => some t
  | .fault _ => none
  | .refused _ => none

/-- The response of the next state. -/
def respOf (r : Result State) : Option Response := (nextOf r).map (·.resp)

/-- The refusal, if it is one. -/
def refusalOf (r : Result State) : Option Refusal :=
  match r with
  | .refused x => some x
  | .next _ => none
  | .fault _ => none

theorem next_of_isSome {r : Result State} (h : (nextOf r).isSome = true) : ∃ t, r = .next t := by
  cases r with
  | next t => exact ⟨t, rfl⟩
  | fault f => cases h
  | refused x => cases h

theorem next_of_resp {r : Result State} {x : Response} (h : respOf r = some x) : ∃ t, r = .next t ∧ t.resp = x := by
  cases r with
  | next t => exact ⟨t, rfl, by simpa [respOf, nextOf] using h⟩
  | fault f => cases h
  | refused x => cases h

/-- The block of Scenario B (E4) with the given inputs, through a direct attachment. -/
def block (vsh vbus : Rat) (cal : Word) : State :=
  { State.resetWith ⟨.halfUp, .direct, 0, 0⟩ with cfg := 0x019F, cal := cal, vsh := vsh, vbus := vbus }

/-- Scenario B (E4). -/
def scenarioB : State := block (20 / 1000) (1198 / 100) 20480

/-- Scenario C (E5). -/
def scenarioC : State := block (-320 / 1000) (1198 / 100) 20480

/-- Scenario A (E3), after its INIT. -/
def scenarioA : State := { block (20 / 1000) 12 4472 with cfg := 0x399F, phase := .ready ⟨1 / 10, 3 / 32768, 4473⟩ }

/-- The sequencer of V-SEQ: `Rsh = 1/10`, `Imax = 0.65536`. -/
def seqB (vsh vbus : Rat) : State := { block vsh vbus 20480 with phase := .ready ⟨1 / 10, 1 / 50000, 20480⟩ }

/-- The same machine with its port through a transport and the coming draws. -/
def viaTransport (draws : List Draw) (s : State) : State :=
  { s with params := ⟨.halfUp, .transport .dev40, 0, 0⟩, draws := draws }

/-- The machine with the given moves to come. -/
def withMoves (ms : List Move) (s : State) : State := s.setScript ms

/-- The state after `k` steps, if they all end in a next state. -/
def after (k : Nat) (s : State) : Option State := nextOf (Host.Core.run core k s)

/-- The INIT of Scenario A, as the word 0x0733 (V-CFG). -/
def initA : Move := .cmd (.seq 0x0733 (1 / 10) 3)

/-- Scenario B's block inside that INIT: its first transaction done, the second to come. -/
def midInit : State :=
  { scenarioB with cfg := 0x399F, phase := .cfgWritten ⟨1 / 10, 3 / 32768, 4473⟩, bus := [⟨.write 0 [0x39, 0x9F], some []⟩] }

/-- A draw: the transaction completes. -/
def good : Draw := ⟨true, false⟩

/-- A draw: it fails, and a write does not land. -/
def lost : Draw := ⟨false, false⟩

/-- A draw: it fails, and a write has landed. -/
def landed : Draw := ⟨false, true⟩

/-! ### Well-formedness: one ill-formed term for each check -/

theorem test_wf_rsh : Instr.wellFormed (.init 0 3 1 3 3 3) = false := by decide +kernel
theorem test_wf_imax : Instr.wellFormed (.init (1 / 10) (-1) 1 3 3 3) = false := by decide +kernel
theorem test_wf_badc : Instr.wellFormed (.init (1 / 10) 3 1 3 4 3) = false := by decide +kernel
theorem test_wf_sadc : Instr.wellFormed (.init (1 / 10) 3 1 3 3 8) = false := by decide +kernel
theorem test_wf_good : Instr.wellFormed (.init (1 / 10) 3 1 3 9 15) = true := by decide +kernel

/-! ### Decoding: words written out from the bit tables of 30_encoding.md R80 and R84 (`op` 25:24, `addr` 23:16,
`data` 15:0; `cmd` 13:11, `range` 10, `gain` 9:8, `badc` 7:4, `sadc` 3:0), most of them V-PORT's and V-CFG's own -/

theorem test_decode_wr : ([(0x000019F, .wrConfiguration 0x019F), (0x0011234, .wrShuntVoltage 0x1234),
    (0x002FFFF, .wrBusVoltage 0xFFFF), (0x0030001, .wrPower 1), (0x0048000, .wrCurrent 0x8000),
    (0x0055000, .wrCalibration 20480)] ++
    [(0x006ABCD, .wrUnmapped6 0 0xABCD), (0x00D0001, .wrUnmapped8 5 1), (0x01A0002, .wrUnmapped16 10 2),
    (0x0350003, .wrUnmapped32 21 3), (0x06A0004, .wrUnmapped64 42 4), (0x0FF0001, .wrUnmapped128 127 1)] :
    List (PortWord × Instr)).all (fun x => decodesTo (.port x.1) x.2) = true := by decide +kernel

theorem test_decode_rdu : ([(0x1000000, .rduConfiguration), (0x1010000, .rduShuntVoltage), (0x102FFFF, .rduBusVoltage),
    (0x1030000, .rduPower), (0x1040000, .rduCurrent), (0x1050000, .rduCalibration)] ++
    [(0x1070000, .rduUnmapped6 1), (0x10A0000, .rduUnmapped8 2), (0x1150000, .rduUnmapped16 5),
    (0x12A0000, .rduUnmapped32 10), (0x1550000, .rduUnmapped64 21), (0x1AA0000, .rduUnmapped128 42)] :
    List (PortWord × Instr)).all (fun x => decodesTo (.port x.1) x.2) = true := by decide +kernel

theorem test_decode_rds : ([(0x2000000, .rdsConfiguration), (0x2010000, .rdsShuntVoltage), (0x2020000, .rdsBusVoltage),
    (0x2030000, .rdsPower), (0x2040000, .rdsCurrent), (0x2050000, .rdsCalibration)] ++
    [(0x2060000, .rdsUnmapped6 0), (0x20E0000, .rdsUnmapped8 6), (0x21D0000, .rdsUnmapped16 13),
    (0x23A0000, .rdsUnmapped32 26), (0x2740000, .rdsUnmapped64 52), (0x2FF0000, .rdsUnmapped128 127)] :
    List (PortWord × Instr)).all (fun x => decodesTo (.port x.1) x.2) = true := by decide +kernel

theorem test_decode_seq : ([(0x0733, .init 2 5 1 3 3 3), (0x019A, .init 2 5 0 1 9 10), (0x04C2, .init 2 5 1 0 12 2),
    (0x023F, .init 2 5 0 2 3 15), (0x0BFF, .getsv), (0x1000, .getbv), (0x1800, .geti), (0x2000, .getp)] :
    List (SeqWord × Instr)).all (fun x => decodesTo (.seq x.1 2 5) x.2) = true := by decide +kernel

theorem test_decode_reserved : decode (.port 0x3000000) = .error .reservedOp ∧
    decode (.seq 0x2800 0 0) = .error .reservedCmd ∧ decode (.seq 0x3000 0 0) = .error .reservedCmd ∧
    decode (.seq 0x3800 0 0) = .error .reservedCmd := ⟨rfl, rfl, rfl, rfl⟩

/-- The host's numbering: 26 bits are four whole bytes, 14 bits two; a bit above the format is no instruction. -/
theorem test_table_words : decodeTableWord 32 0x0055000 = some (.wrCalibration 20480) ∧
    decodeTableWord 16 0x2000 = some .getp ∧ decodeTableWord 32 0x4000000 = none ∧ decodeTableWord 16 0x4000 = none := by
  decide +kernel

/-- A table word is the very next step's instruction. -/
theorem test_fetch_word : (nextOf (step (scenarioB.withFetchWord 32 0x0051179))).map (·.cal) = some 4472 := by decide +kernel

/-! ### Port commands (V-MASK, E4, E5) -/

/-- V-MASK, CONFIGURATION: the value written and the value stored. -/
theorem test_wr_configuration : [(0x019F, 0x019F), (0x4000, 0), (0xFFFF, 0xBFFF), (0x8000, 0x8000), (0x7FFF, 0x3FFF)].all
    (fun x : Word × Word => (nextOf (exec (.wrConfiguration x.1) scenarioB)).map (fun t => (t.cfg, t.cal)) == some (x.2, 20480))
    = true := by decide +kernel

/-- V-MASK, CALIBRATION. -/
theorem test_wr_calibration : [(20481, 20480), (4473, 4472), (1, 0), (0xFFFF, 0xFFFE), (0x8001, 0x8000)].all
    (fun x : Word × Word => (nextOf (exec (.wrCalibration x.1) scenarioB)).map (fun t => (t.cfg, t.cal)) == some (0x019F, x.2))
    = true := by decide +kernel

/-- V-MASK, the other addresses: nothing changes. -/
theorem test_wr_elsewhere : [.wrShuntVoltage 0x1234, .wrBusVoltage 0xFFFF, .wrPower 1, .wrCurrent 0x8000,
    .wrUnmapped6 0 0xABCD, .wrUnmapped8 0 1, .wrUnmapped16 0 1, .wrUnmapped32 0 1, .wrUnmapped64 0 1,
    .wrUnmapped128 127 1].all
    (fun i : Instr => (nextOf (exec i scenarioB)).map (fun t => (t.cfg, t.cal, t.resp)) == some (0x019F, 20480, .done))
    = true := by decide +kernel

/-- V-PORT: the bytes of a write, the more significant first. -/
theorem test_wr_bytes : (nextOf (exec (.wrCalibration 4473) scenarioB)).map (·.bus) =
    some [⟨.write 5 [0x11, 0x79], some []⟩] := by decide +kernel

/-- E4: the reads of Scenario B. -/
theorem test_rdu_scenarioB : [(.rduConfiguration, 415), (.rduShuntVoltage, 2000), (.rduBusVoltage, 23960),
    (.rduPower, 5990), (.rduCurrent, 10000), (.rduCalibration, 20480)].all
    (fun x : Instr × Nat => respOf (exec x.1 scenarioB) == some (.unsigned x.2)) = true := by decide +kernel

/-- V-MASK: unmapped addresses read 0. -/
theorem test_read_unmapped : [.rduUnmapped6 0, .rduUnmapped8 0, .rduUnmapped16 0, .rduUnmapped32 0, .rduUnmapped64 0,
    .rduUnmapped128 127].all (fun i : Instr => respOf (exec i scenarioB) == some (.unsigned 0)) &&
    [.rdsUnmapped6 0, .rdsUnmapped8 0, .rdsUnmapped16 0, .rdsUnmapped32 0, .rdsUnmapped64 0, .rdsUnmapped128 127].all
    (fun i : Instr => respOf (exec i scenarioB) == some (.signed 0)) = true := by decide +kernel

/-- E5: the reads of Scenario C, with V-PORT's signed readings of the same patterns. -/
theorem test_rds_scenarioC : [(.rdsConfiguration, 415), (.rdsShuntVoltage, -32000), (.rdsBusVoltage, 23960),
    (.rdsPower, -30304), (.rdsCurrent, -28928), (.rdsCalibration, 20480)].all
    (fun x : Instr × Int => respOf (exec x.1 scenarioC) == some (.signed x.2)) = true := by decide +kernel

/-- V-PORT: the bytes of a read. -/
theorem test_rdu_bytes : (nextOf (exec .rduPower scenarioC)).map (·.bus) =
    some [⟨.read 3 2, some [0x89, 0xA0]⟩] := by decide +kernel

/-- V-FAIL: a failed read returns no value; a failed write lands or not. -/
theorem test_port_failures : respOf (exec .rdsCurrent (viaTransport [lost] scenarioB)) = some (.ioFailure ⟨.rds, 4⟩) ∧
    (nextOf (exec (.wrConfiguration 1) (viaTransport [lost] scenarioB))).map (·.cfg) = some 0x019F ∧
    (nextOf (exec (.wrConfiguration 1) (viaTransport [landed] scenarioB))).map (·.cfg) = some 1 := by decide +kernel

/-! ### The datapath (V-SCALE, V-FLOOR, V-TIE, V-DOMAIN, E6) -/

/-- The four derived patterns. -/
def derived (s : State) : List Word := [s.pattern 1, s.pattern 2, s.pattern 3, s.pattern 4]

/-- V-SCALE S9, S11, S12, S14 and S17: the flag, the s16 boundary and the floor on negative products (V-FLOOR). -/
theorem test_scale : derived (block (-32001 / 100000) (1198 / 100) 20480) = [33535, 23961, 35229, 36603] ∧
    derived (block (32768 / 100000) (1198 / 100) 20480) = [32768, 23961, 32604, 32768] ∧
    derived (block (-32768 / 100000) (1198 / 100) 20480) = [32768, 23961, 32931, 32768] ∧
    derived (block (4 / 10) (1198 / 100) 20480) = [40000, 23961, 54264, 3392] ∧
    derived (block (-1 / 100000) (1198 / 100) 2) = [65535, 23960, 65535, 65535] := by decide +kernel

/-- V-SCALE S26, S28, S32 and S35: the bus field's wrap, a negative bus voltage, and the wrap to 32 bits. -/
theorem test_scale_wraps : derived (block (20 / 1000) (32768 / 1000) 20480) = [2000, 0, 16384, 10000] ∧
    derived (block (20 / 1000) (-4 / 1000) 20480) = [2000, 65528, 65534, 10000] ∧
    derived (block (32 / 100) 32 65534) = [32000, 64000, 25716, 53232] ∧
    derived (block (5 / 10) 12 65534) = [50000, 24001, 47447, 13543] := by decide +kernel

/-- V-TIE. -/
theorem test_tie : [AdcTie.halfUp, .halfAway, .halfEven].map (fun t => (roundAdc t (1 / 2), roundAdc t (-1 / 2),
      roundAdc t (-3 / 2), roundAdc t (5 / 2), roundAdc t (-6 / 10))) =
    [(1, 0, -1, 3, -1), (1, -1, -2, 3, -1), (0, 0, -2, 2, -1)] := by decide +kernel

/-- V-DOMAIN. -/
theorem test_domain : respOf (exec .rduShuntVoltage (block (2147483647 / 100000) 0 0)) = some (.unsigned 0xFFFF) ∧
    refusalOf (exec .rduShuntVoltage (block (2147483648 / 100000) 0 0)) = some .outOfDomain ∧
    respOf (exec .rduShuntVoltage (block (-2147483648 / 100000) 0 0)) = some (.unsigned 0) ∧
    refusalOf (exec .rduBusVoltage (block 0 (1073741824 / 1000) 0)) = some .outOfDomain := by decide +kernel

/-! ### The codec (V-CFG) -/

theorem test_cfgpack : cfgPack .range32V .gain8 .adc12Bit .adc12Bit = 0x399F ∧
    cfgPack .range16V .gain2 .adcAvg2 .adcAvg4 = 0x0CD7 ∧ cfgPack .range32V .gain1 .adcAvg16 .adc11Bit = 0x2617 ∧
    cfgPack .range16V .gain4 .adc12Bit .adcAvg128 = 0x11FF := by decide +kernel

theorem test_cfgdec : cfgDec 0x0227 = ⟨false, false, .range16V, .gain1, none, none, 7, true⟩ ∧
    cfgDec 0x8000 = ⟨true, false, .range16V, .gain1, some .adc9Bit, some .adc9Bit, 0, false⟩ ∧
    cfgDec 0x399E = ⟨false, false, .range32V, .gain8, some .adc12Bit, some .adc12Bit, 6, false⟩ := by decide +kernel

/-! ### The sequencer (E3, V-CAL, V-SEQ, V-FAIL) -/

/-- E3, Program 2: the INIT of Scenario A, one step per transaction. -/
theorem test_init : (after 1 (withMoves [initA] scenarioB)).map (fun t => (t.cfg, t.cal, t.phase, t.resp)) =
      some (0x399F, 20480, .cfgWritten ⟨1 / 10, 3 / 32768, 4473⟩, .idle) ∧
    (after 2 (withMoves [initA] scenarioB)).map (fun t => (t.cfg, t.cal, t.phase, t.resp)) =
      some (0x399F, 4472, .ready ⟨1 / 10, 3 / 32768, 4473⟩, .done) ∧
    (after 3 (withMoves [initA] scenarioB)).map (·.bus) =
      some [⟨.write 0 [0x39, 0x9F], some []⟩, ⟨.write 5 [0x11, 0x79], some []⟩] := by decide +kernel

/-- V-FAIL: the five INITs through a transport, two steps each. -/
theorem test_init_failures : [[good, good], [lost], [landed], [good, lost], [good, landed]].map (fun d =>
      (after 2 (withMoves [initA] (viaTransport d scenarioB))).map (fun t => (t.cfg, t.cal, t.phase, t.bus.length))) =
    [some (0x399F, 4472, .ready ⟨1 / 10, 3 / 32768, 4473⟩, 2), some (0x019F, 20480, .failed, 1),
      some (0x399F, 20480, .failed, 1), some (0x399F, 20480, .failed, 2), some (0x399F, 4472, .failed, 2)] := by
  decide +kernel

/-- 20_memory.md R63: a command of the blocked caller waits for INIT's second write. 70_reset_and_hazards.md R250: a new
register block between the two writes keeps the second. -/
theorem test_between_the_writes :
    (after 3 (withMoves [initA, .cmd (.port 0x1050000)] scenarioB)).map (fun t => (t.script, t.resp)) =
      some ([], .unsigned 4472) ∧
    (after 3 (withMoves [initA, .resetBlock] scenarioB)).map (fun t => (t.cfg, t.cal, t.phase)) =
      some (0, 4472, .ready ⟨1 / 10, 3 / 32768, 4473⟩) ∧
    (after 3 (withMoves [initA, .proceed, .resetBlock] scenarioB)).map (fun t => (t.cfg, t.cal, t.phase)) =
      some (0, 0, .ready ⟨1 / 10, 3 / 32768, 4473⟩) := by decide +kernel

/-- V-CAL: calibration values, among them the wrap of decision D17 and 0. -/
theorem test_calibration : calValue (1 / 10) (65536 / 100000) = 20480 ∧ calValue (1 / 10) (20481 / 100000) = 65532 ∧
    calValue (1 / 10) (2048 / 10000) = 0 ∧ calValue (1 / 1000) 2 = 15728 ∧ calValue 1 (134217728 / 100000) = 1 ∧
    calValue 100 100 = 0 := by decide +kernel

/-- E3: the measurements of Scenario A. -/
theorem test_scenarioA : respOf (exec .getsv scenarioA) = some (.measured 2000 (1 / 100000) (1 / 50)) ∧
    respOf (exec .getbv scenarioA) = some (.measured 3000 (1 / 250) 12) ∧
    respOf (exec .geti scenarioA) = some (.measured 2183 (3 / 32768) (6549 / 32768)) ∧
    respOf (exec .getp scenarioA) = some (.measured 1309 (60 / 32768) (19635 / 8192)) := by decide +kernel

/-- V-SEQ: the second row, and the third for the dropped flag. -/
theorem test_seq : respOf (exec .getsv (seqB (-32 / 100) (1198 / 100))) = some (.measured (-32000) (1 / 100000) (-32 / 100)) ∧
    respOf (exec .getbv (seqB (32001 / 100000) (1198 / 100))) = some (.measured 2995 (1 / 250) (1198 / 100)) ∧
    respOf (exec .geti (seqB (-32 / 100) (1198 / 100))) = some (.measured (-28928) (1 / 50000) (-57856 / 100000)) ∧
    respOf (exec .getp (seqB (-32 / 100) (1198 / 100))) = some (.measured 35232 (1 / 2500) (140928 / 10000)) := by
  decide +kernel

theorem test_measurement_not_ready : refusalOf (exec .geti scenarioB) = some .notReady := by decide +kernel

/-- V-FAIL: transfers of one and four bytes. -/
theorem test_bad_length : refusalOf (transferBytes (.write 5 [1]) scenarioB) = some .badLength ∧
    refusalOf (transferBytes (.read 4 4) scenarioB) = some .badLength := by decide +kernel

/-! ### Witnesses: the hypotheses of each statement of Certificates/Slice0/Obligations.lean, met together -/

/-- Inputs outside the domain: the first shunt voltage refused (V-DOMAIN). -/
def outside : State := { block (2147483648 / 100000) 0 0 with phase := .ready ⟨1 / 10, 1 / 50000, 20480⟩ }

theorem witness_EncodeDecodeIsCanonical : decode (.port 0x102FFFF) = .ok .rduBusVoltage ∧
    decode (.seq 0x0BFF 2 5) = .ok .getsv ∧ decode (.port 0x0FFFFFF) = .ok (.wrUnmapped128 127 0xFFFF) := ⟨rfl, rfl, rfl⟩

theorem witness_ReservedWordsAreRefused :
    ((scenarioB.setScript [.cmd (.port 0x3000000)]).script = [.cmd (.port 0x3000000)] ∧
      scenarioB.inInit = false ∧ decode (.port 0x3000000) = .error .reservedOp) ∧
    ((scenarioB.setScript [.cmd (.seq 0x2800 1 1)]).script = [.cmd (.seq 0x2800 1 1)] ∧
      scenarioB.inInit = false ∧ decode (.seq 0x2800 1 1) = .error .reservedCmd) := ⟨⟨rfl, rfl, rfl⟩, rfl, rfl, rfl⟩

theorem witness_StepRunsTheDecodedInstruction :
    (withMoves [.cmd (.port 0x0055000), .env 0 0] scenarioB).script = [.cmd (.port 0x0055000), .env 0 0] ∧
      (withMoves [.cmd (.port 0x0055000), .env 0 0] scenarioB).inInit = false ∧
      decode (.port 0x0055000) = .ok (.wrCalibration 20480) ∧
    (withMoves [.cmd (.port 0x0055000)] midInit).script = [.cmd (.port 0x0055000)] ∧
      (withMoves [.cmd (.port 0x0055000)] midInit).inInit = true := ⟨rfl, rfl, rfl, rfl, rfl⟩

/-- Each move, outside and inside INIT where the clauses tell them apart. -/
theorem witness_StepMovesOfTheOutside :
    (withMoves [.transfer (.write 5 [0x11, 0x79])] scenarioB).script = [.transfer (.write 5 [0x11, 0x79])] ∧
    scenarioB.inInit = false ∧ midInit.inInit = true ∧
    (withMoves [.env 1 2] scenarioB).script = [.env 1 2] ∧ (withMoves [.resetBlock] midInit).script = [.resetBlock] ∧
    (withMoves [.resetSequencer] midInit).script = [.resetSequencer] ∧
    (withMoves [.clash (.port 0) (.port 0)] scenarioB).script = [.clash (.port 0) (.port 0)] ∧
    (withMoves [.proceed] midInit).script = [.proceed] ∧ scenarioB.script = [] ∧ midInit.script = [] :=
  ⟨rfl, rfl, rfl, rfl, rfl, rfl, rfl, rfl, rfl, rfl⟩

/-- A step outside INIT and one inside it. -/
theorem witness_StepIsAtMostOneTransaction : (∃ t, step (withMoves [initA] (viaTransport [good] scenarioB)) = .next t) ∧
    ∃ t, step (viaTransport [lost] midInit) = .next t :=
  ⟨next_of_isSome (by decide +kernel), next_of_isSome (by decide +kernel)⟩

theorem witness_WrConfigurationStoresMasked : scenarioB.portOk = true ∧ (viaTransport [good] scenarioB).portOk = true ∧
    (1 : Addr) ≠ 0 ∧ (255 : Addr) ≠ 0 ∧ ∃ t, exec (.wrConfiguration 0xFFFF) scenarioB = .next t :=
  ⟨rfl, rfl, by decide, by decide, next_of_isSome (by decide +kernel)⟩

theorem witness_WrCalibrationStoresMasked : scenarioB.portOk = true ∧
    ∃ t, exec (.wrCalibration 0xFFFF) scenarioB = .next t := ⟨rfl, next_of_isSome (by decide +kernel)⟩

theorem witness_WrElsewhereHasNoEffect : (Instr.wrShuntVoltage 7).access = .write 1 7 ∧ (1 : Addr) ≠ 0 ∧ (1 : Addr) ≠ 5 ∧
    (Instr.wrUnmapped6 0 7).access = .write 6 7 ∧ (6 : Addr) ≠ 0 ∧ (6 : Addr) ≠ 5 ∧
    (Instr.wrUnmapped128 127 7).access = .write 255 7 ∧ (255 : Addr) ≠ 0 ∧ (255 : Addr) ≠ 5 ∧ scenarioB.portOk = true := by
  decide +kernel

theorem witness_WrFailureLandsOrNot : (Instr.wrConfiguration 7).access = .write 0 7 ∧
    (Instr.wrCalibration 7).access = .write 5 7 ∧ (viaTransport [lost] scenarioB).portOk = false ∧
    (viaTransport [landed] scenarioB).portOk = false := by decide +kernel

theorem witness_RduReturnsThePattern : Instr.rduConfiguration.access = .readUnsigned 0 ∧
    (Instr.rduUnmapped128 127).access = .readUnsigned 255 ∧ scenarioB.portOk = true ∧ scenarioB.readable 0 = true ∧
    scenarioB.readable 255 = true ∧ (viaTransport [lost] scenarioB).portOk = false := by decide +kernel

theorem witness_RdsReturnsTheSignedPattern : Instr.rdsShuntVoltage.access = .readSigned 1 ∧
    Instr.rdsCurrent.access = .readSigned 4 ∧ scenarioC.portOk = true ∧ scenarioC.readable 1 = true ∧
    scenarioC.readable 4 = true ∧ (viaTransport [lost] scenarioC).portOk = false := by decide +kernel

theorem witness_RduAndRdsReturnTheSameBits : Instr.rduPower.access = .readUnsigned 3 ∧ Instr.rdsPower.access = .readSigned 3 ∧
    (scenarioC.setCfg 0).pattern 3 = scenarioC.pattern 3 ∧ scenarioC.portOk = true ∧ (scenarioC.setCfg 0).portOk = true ∧
    scenarioC.readable 3 = true ∧ (scenarioC.setCfg 0).readable 3 = true := by decide +kernel

theorem witness_ReadsHaveNoSideEffects :
    (Instr.rduCurrent.access = .readUnsigned 4 ∧ ∃ t, exec .rduCurrent scenarioB = .next t) ∧
    (Instr.rdsCurrent.access = .readSigned 4 ∧ ∃ t, exec .rdsCurrent (viaTransport [lost] scenarioB) = .next t) ∧
    (Instr.geti.access = .measurement .rds 4 ∧ ∃ t, exec .geti scenarioA = .next t) ∧
    ((scenarioB.setCfg 0).params = scenarioB.params ∧ (scenarioB.setCfg 0).vsh = scenarioB.vsh ∧
      (scenarioB.setCfg 0).vbus = scenarioB.vbus ∧ (scenarioB.setCfg 0).cal = scenarioB.cal ∧
      1 ≤ (1 : Addr).toNat ∧ (4 : Addr).toNat ≤ 4) :=
  ⟨⟨rfl, next_of_isSome (by decide +kernel)⟩, ⟨rfl, next_of_isSome (by decide +kernel)⟩,
    ⟨rfl, next_of_isSome (by decide +kernel)⟩, rfl, rfl, rfl, rfl, by decide, by decide⟩

theorem witness_DerivedReadsOutsideTheDomainAreRefused : outside.readable 1 = false ∧ outside.readable 4 = false ∧
    outside.readable 0 = true ∧ outside.readable 5 = true ∧ outside.portOk = true ∧
    (Instr.wrCalibration 1).access = .write 5 1 ∧ (Instr.init (1 / 10) 3 1 3 3 3).access = .initialise ∧
    refusalOf (exec .geti outside) = some .outOfDomain ∧ refusalOf (exec .geti (viaTransport [lost] outside)) = none ∧
    Instr.rduShuntVoltage.access = .readUnsigned 1 ∧ Instr.rdsCurrent.access = .readSigned 4 ∧
    Instr.geti.access = .measurement .rds 4 ∧ outside.phase = .ready ⟨1 / 10, 1 / 50000, 20480⟩ ∧
    (block 0 (1073741824 / 1000) 0).readable 2 = false := by decide +kernel

theorem witness_StoredRegistersReadAsStored : outside.portOk = true := by decide +kernel

/-- The largest admitted shunt code, an s16 boundary and the code below the flag's threshold. -/
theorem witness_ShuntVoltageReadsTheCode :
    (2147483647 = roundAdc .halfUp ((block (2147483647 / 100000) 0 0).vsh * 100000) ∧
      (block (2147483647 / 100000) 0 0).portOk = true ∧ (block (2147483647 / 100000) 0 0).readable 1 = true) ∧
    (-32768 = roundAdc .halfUp ((block (-32768 / 100000) 0 0).vsh * 100000) ∧
      (block (-32768 / 100000) 0 0).portOk = true ∧ (block (-32768 / 100000) 0 0).readable 1 = true) := by decide +kernel

/-- The flag at 32001 and at 32000, the bus field at its largest value and just past it. -/
theorem witness_BusVoltageReadsVoltageAndFlag :
    (32001 = roundAdc .halfUp ((block (32001 / 100000) (32764 / 1000) 0).vsh * 100000) ∧
      8191 = ((block (32001 / 100000) (32764 / 1000) 0).vbus * 250).floor ∧
      (block (32001 / 100000) (32764 / 1000) 0).portOk = true ∧ (block (32001 / 100000) (32764 / 1000) 0).readable 2 = true) ∧
    (32000 = roundAdc .halfUp ((block (32 / 100) (32768 / 1000) 0).vsh * 100000) ∧
      8192 = ((block (32 / 100) (32768 / 1000) 0).vbus * 250).floor ∧
      (block (32 / 100) (32768 / 1000) 0).portOk = true ∧ (block (32 / 100) (32768 / 1000) 0).readable 2 = true) := by
  decide +kernel

theorem witness_CurrentReadsTheExactProduct : 50000 = roundAdc .halfUp ((block (5 / 10) 12 65534).vsh * 100000) ∧
    (block (5 / 10) 12 65534).portOk = true ∧ (block (5 / 10) 12 65534).readable 4 = true := by decide +kernel

/-- V-SCALE S35, where the first product wraps. -/
theorem witness_PowerReadsTheWrappedProduct : 50000 = roundAdc .halfUp ((block (5 / 10) 12 65534).vsh * 100000) ∧
    3000 = ((block (5 / 10) 12 65534).vbus * 250).floor ∧
    -248601 = (50000 * ((block (5 / 10) 12 65534).cal.toNat : Int)).bmod (2 ^ 32) / 4096 ∧
    (block (5 / 10) 12 65534).portOk = true ∧ (block (5 / 10) 12 65534).readable 3 = true := by decide +kernel

/-- V-SCALE S31, the largest products inside the predicate, and Scenario C. -/
theorem witness_NoWideOverflowMakesProductsExact : NoWideOverflow (block (32767 / 100000) (1638 / 100) 65534) ∧
    NoWideOverflow scenarioC := by unfold NoWideOverflow; decide +kernel

/-- The first condition at both ends of the shunt code with the bus voltage at 4095; the second at a bus voltage of
8191; the third at 4095. -/
theorem witness_NoWideOverflowSufficientConditions :
    ((block (-32768 / 100000) (1638 / 100) 65535).shuntCode = -32768 ∧
      (block (-32768 / 100000) (1638 / 100) 65535).busQ = 4095) ∧
    ((block (32767 / 100000) 0 65535).shuntCode = 32767 ∧ (block (32767 / 100000) 0 65535).busQ = 0) ∧
    ((block (32767 / 100000) (32764 / 1000) 4096).shuntCode = 32767 ∧
      (block (32767 / 100000) (32764 / 1000) 4096).busQ = 8191 ∧ (32767 * 4096 : Int) ≤ 2 ^ 31 - 1 ∧
      ((block (32767 / 100000) (32764 / 1000) 4096).cal.toNat = 4096) ∧ (32767 * 4096 / 4096 : Int) ≤ 32768) := by
  decide +kernel

theorem witness_UnmappedReadsReturnZero : (Instr.rduUnmapped6 0).access = .readUnsigned 6 ∧
    (Instr.rdsUnmapped6 0).access = .readSigned 6 ∧ (Instr.rduUnmapped128 127).access = .readUnsigned 255 ∧
    (Instr.rdsUnmapped128 127).access = .readSigned 255 ∧ 6 ≤ (6 : Addr).toNat ∧ 6 ≤ (255 : Addr).toNat ∧
    outside.portOk = true := by decide +kernel

theorem witness_ConfigurationDoesNotEnterTheDatapath :
    ((1 : Addr) ≠ 0 ∧ Instr.rduShuntVoltage.access = .readUnsigned 1 ∧ ∃ t, exec .rduShuntVoltage scenarioB = .next t) ∧
    ((5 : Addr) ≠ 0 ∧ Instr.rdsCalibration.access = .readSigned 5 ∧ ∃ t, exec .rdsCalibration scenarioB = .next t) ∧
    (Instr.getp.access = .measurement .rdu 3 ∧ ∃ t, exec .getp scenarioA = .next t) ∧
    refusalOf (exec .getp scenarioB) = some .notReady :=
  ⟨⟨by decide, rfl, next_of_isSome (by decide +kernel)⟩, ⟨by decide, rfl, next_of_isSome (by decide +kernel)⟩,
    ⟨rfl, next_of_isSome (by decide +kernel)⟩, by decide +kernel⟩

theorem witness_CodesStayInRange : (block (2147483647 / 100000) (1073741823 / 1000) 65534).inputsAdmitted = true ∧
    (block (-2147483648 / 100000) (-1073741824 / 1000) 65534).inputsAdmitted = true := by decide +kernel

theorem witness_CfgCodecRoundTrip : cfgPack .range32V .gain8 .adcAvg128 .adc9Bit = cfgPack .range32V .gain8 .adcAvg128 .adc9Bit :=
  rfl

theorem witness_CodeMapsAreInjectiveOntoTheirTables : BusVoltageRange.range32V.code = 1 ∧ Gain.gain8.code = 3 ∧
    AdcSetting.adcAvg2.code = 9 ∧ RegisterAddress.calibration.code = 5 ∧ DeviceAddress.dev45.code = 0x45 := by decide

theorem witness_InitWritesConfigurationThenCalibration : (0 : Rat) < 1 / 10 ∧ (0 : Rat) < 3 ∧
    (viaTransport [good, good] scenarioB).portOk = true ∧ (viaTransport [good, good] scenarioB).afterDraw.portOk = true ∧
    0x399F = cfgPack .range32V .gain8 .adc12Bit .adc12Bit ∧
    4473 = BitVec.ofInt 16 (134217728 / 100000 / (3 * (1 / 10)) : Rat).floor := by decide +kernel

/-- With the script ending after the INIT, with a waiting command, and the packing and value as above. -/
theorem witness_TwoStepsCompleteInit :
    (withMoves [initA, .cmd (.port 0x1050000)] (viaTransport [good, good] scenarioB)).script = [initA, .cmd (.port 0x1050000)] ∧
    (withMoves [initA, .cmd (.port 0x1050000)] (viaTransport [good, good] scenarioB)).inInit = false ∧
    (withMoves [initA, .cmd (.port 0x1050000)] (viaTransport [good, good] scenarioB)).portOk = true ∧
    (withMoves [initA, .cmd (.port 0x1050000)] (viaTransport [good, good] scenarioB)).afterDraw.portOk = true ∧
    decode (.seq 0x0733 (1 / 10) 3) = .ok (.init (1 / 10) 3 (BusVoltageRange.code .range32V) (Gain.code .gain8)
      (AdcSetting.code .adc12Bit) (AdcSetting.code .adc12Bit)) ∧
    (∀ m ∈ [Move.cmd (.port 0x1050000)].head?, m.byCaller = true) ∧ (∀ m ∈ ([] : List Move).head?, m.byCaller = true) :=
  ⟨rfl, rfl, rfl, rfl, rfl, by simp [Move.byCaller], by simp⟩

/-- Both clauses, each with a failed write that lands and one that does not. -/
theorem witness_InitFailureLeavesNoInstance : (0 : Rat) < 1 / 10 ∧ (0 : Rat) < 3 ∧
    0x399F = cfgPack .range32V .gain8 .adc12Bit .adc12Bit ∧
    4473 = BitVec.ofInt 16 (134217728 / 100000 / (3 * (1 / 10)) : Rat).floor ∧
    (viaTransport [lost] scenarioB).portOk = false ∧ (viaTransport [landed] scenarioB).portOk = false ∧
    (viaTransport [good, lost] scenarioB).portOk = true ∧ (viaTransport [good, lost] scenarioB).afterDraw.portOk = false ∧
    (viaTransport [good, landed] scenarioB).portOk = true ∧ (viaTransport [good, landed] scenarioB).afterDraw.portOk = false := by
  decide +kernel

theorem witness_InitRefusesOperandsOutsideTheirTypes : refusalOf (exec (.init 0 3 0 0 3 3) scenarioB) = some .badOperand ∧
    refusalOf (exec (.init (1 / 10) 0 0 0 3 3) scenarioB) = some .badOperand ∧
    refusalOf (exec (.init (1 / 10) 3 0 0 4 3) scenarioB) = some .badOperand ∧
    refusalOf (exec (.init (1 / 10) 3 0 0 3 8) scenarioB) = some .badOperand ∧
    refusalOf (exec (.init (1 / 10) 3 0 0 3 9) scenarioB) = none := by decide +kernel

theorem witness_InitPassesThroughCfgWritten : scenarioB.portOk = true ∧ (viaTransport [lost] scenarioB).portOk = false ∧
    midInit.phase = .cfgWritten ⟨1 / 10, 3 / 32768, 4473⟩ ∧ midInit.portOk = true ∧
    (viaTransport [lost] midInit).phase = .cfgWritten ⟨1 / 10, 3 / 32768, 4473⟩ ∧ (viaTransport [lost] midInit).portOk = false := by
  decide +kernel

/-- A state for each clause: outside INIT, on an INIT, inside it with the caller waiting, and with the environment. -/
theorem witness_PhaseChangesOnlyByInitOrReset :
    ((∃ t, step (withMoves [.env 1 2] scenarioB) = .next t) ∧ (withMoves [.env 1 2] scenarioB).inInit = false ∧
      Move.mayChangePhase (.env 1 2) = false) ∧
    ((∃ t, step (withMoves [initA] scenarioB) = .next t) ∧ (withMoves [initA] scenarioB).inInit = false ∧
      decode (.seq 0x0733 (1 / 10) 3) = .ok (.init (1 / 10) 3 1 3 3 3) ∧
      (Instr.init (1 / 10) 3 1 3 3 3).access = .initialise) ∧
    ((∃ t, step (withMoves [initA] midInit) = .next t) ∧
      (withMoves [initA] midInit).phase = .cfgWritten ⟨1 / 10, 3 / 32768, 4473⟩ ∧ initA.byCaller = true) ∧
    ((∃ t, step (withMoves [.resetBlock] midInit) = .next t) ∧ Move.resetBlock.byCaller = false ∧
      Move.resetBlock ≠ .proceed ∧ Move.resetBlock ≠ .resetSequencer) :=
  ⟨⟨⟨_, rfl⟩, rfl, rfl⟩, ⟨next_of_isSome (by decide +kernel), rfl, rfl, rfl⟩,
    ⟨next_of_isSome (by decide +kernel), rfl, rfl⟩, ⟨_, rfl⟩, rfl, by decide, by decide⟩

theorem witness_GetsvScalesTheShuntVoltage : scenarioA.phase = .ready ⟨1 / 10, 3 / 32768, 4473⟩ ∧ scenarioA.portOk = true ∧
    scenarioA.readable 1 = true ∧ 2000 = (scenarioA.pattern 1).toInt := by decide +kernel

theorem witness_GetbvScalesTheBusVoltage : scenarioA.phase = .ready ⟨1 / 10, 3 / 32768, 4473⟩ ∧ scenarioA.portOk = true ∧
    scenarioA.readable 2 = true ∧ 3000 = (scenarioA.vbus * 250).floor % 8192 := by decide +kernel

theorem witness_GetiScalesTheCurrent : scenarioA.phase = .ready ⟨1 / 10, 3 / 32768, 4473⟩ ∧ scenarioA.portOk = true ∧
    scenarioA.readable 4 = true ∧ 2183 = (scenarioA.pattern 4).toInt := by decide +kernel

theorem witness_GetpScalesThePower : scenarioA.phase = .ready ⟨1 / 10, 3 / 32768, 4473⟩ ∧ scenarioA.portOk = true ∧
    scenarioA.readable 3 = true ∧ 1309 = (scenarioA.pattern 3).toNat := by decide +kernel

theorem witness_MeasurementsNeedReady : Instr.getsv.access = .measurement .rds 1 ∧ (∀ c, scenarioB.phase ≠ .ready c) ∧
    (∀ c, (scenarioB.setPhase .failed).phase ≠ .ready c) :=
  ⟨rfl, (by intro c h; cases h), (by intro c h; cases h)⟩

theorem witness_MeasurementFailurePropagates : Instr.geti.access = .measurement .rds 4 ∧
    (viaTransport [lost] scenarioA).phase = .ready ⟨1 / 10, 3 / 32768, 4473⟩ ∧ (viaTransport [lost] scenarioA).portOk = false := by
  decide +kernel

theorem witness_MeasurementsStayInRange : scenarioA.phase = .ready ⟨1 / 10, 3 / 32768, 4473⟩ ∧ (0 : Rat) < 3 / 32768 ∧
    Instr.getsv.access = .measurement .rds 1 ∧ Instr.getbv.access = .measurement .rdu 2 ∧
    Instr.geti.access = .measurement .rds 4 ∧ Instr.getp.access = .measurement .rdu 3 ∧
    (∃ t, exec .getsv scenarioA = .next t ∧ t.resp = .measured 2000 (1 / 100000) (1 / 50)) ∧
    (∃ t, exec .getbv scenarioA = .next t ∧ t.resp = .measured 3000 (1 / 250) 12) ∧
    (∃ t, exec .geti scenarioA = .next t ∧ t.resp = .measured 2183 (3 / 32768) (6549 / 32768)) ∧
    (∃ t, exec .getp scenarioA = .next t ∧ t.resp = .measured 1309 (60 / 32768) (19635 / 8192)) :=
  ⟨rfl, by decide +kernel, rfl, rfl, rfl, rfl, next_of_resp test_scenarioA.1, next_of_resp test_scenarioA.2.1,
    next_of_resp test_scenarioA.2.2.1, next_of_resp test_scenarioA.2.2.2⟩

theorem witness_GetpIsWithinOnePowerLsb : scenarioA.phase = .ready ⟨1 / 10, 3 / 32768, 4473⟩ ∧ (0 : Rat) < 3 / 32768 ∧
    scenarioA.portOk = true ∧ scenarioA.readable 3 = true ∧ NoWideOverflow scenarioA ∧ scenarioA.powerCode = 1309 := by
  unfold NoWideOverflow; decide +kernel

theorem witness_GetiNeverExceedsOhmsLaw : (0 : Rat) < 1 / 10 ∧ (0 : Rat) < 3 ∧
    (134217728 / 100000 / (3 * (1 / 10)) : Rat).floor ≤ 65535 ∧
    scenarioA.phase = .ready (CalState.compute (1 / 10) 3) ∧
    scenarioA.cal = (CalState.compute (1 / 10) 3).calVal &&& 0xFFFE ∧ scenarioA.portOk = true ∧
    scenarioA.readable 4 = true ∧ 0 ≤ scenarioA.shuntCode ∧ scenarioA.shuntCode * scenarioA.cal.toNat / 4096 ≤ 32767 := by
  decide +kernel

/-- The invariant holds inside INIT, and the step is its second write, failing; and in READY, where the step is an INIT. -/
theorem witness_StepKeepsTheInvariant :
    (Inv (viaTransport [lost] midInit) ∧ ∃ t, step (viaTransport [lost] midInit) = .next t) ∧
    (Inv (withMoves [initA] scenarioA) ∧ ∃ t, step (withMoves [initA] scenarioA) = .next t) :=
  have sound : CalState.Sound ⟨1 / 10, 3 / 32768, 4473⟩ := by unfold CalState.Sound; decide +kernel
  ⟨⟨⟨by unfold RegInv; decide +kernel, by unfold ResetClean; decide +kernel, sound, rfl⟩, next_of_isSome (by decide +kernel)⟩,
    ⟨by unfold RegInv; decide +kernel, by unfold ResetClean; decide +kernel, sound⟩, next_of_isSome (by decide +kernel)⟩

theorem witness_ResetMeetsTheInvariant : ResetClean ⟨.halfUp, .direct, 0xBFFF, 0xFFFE⟩ := by unfold ResetClean; decide

theorem witness_ParametersNeverChange : ∃ t, step (scenarioB.setScript [.resetBlock]) = .next t := ⟨_, rfl⟩

theorem witness_StoredRegistersChangeOnlyByTheirWrites : (∃ t, exec (.wrCalibration 1) scenarioB = .next t) ∧
    (∀ v, Instr.wrCalibration 1 ≠ .wrConfiguration v) ∧ (Instr.wrCalibration 1).access ≠ .initialise ∧
    (∃ t, exec (.wrConfiguration 1) scenarioB = .next t) ∧ (∀ v, Instr.wrConfiguration 1 ≠ .wrCalibration v) ∧
    (∃ t, exec (.init (1 / 10) 3 1 3 3 3) scenarioB = .next t) ∧ (∀ v, Instr.init (1 / 10) 3 1 3 3 3 ≠ .wrCalibration v) ∧
    (∃ t, proceed scenarioB = .next t) ∧ scenarioB.inInit = false ∧ ∃ t, proceed midInit = .next t :=
  ⟨next_of_isSome (by decide +kernel), (by simp), by decide, next_of_isSome (by decide +kernel), (by simp),
    next_of_isSome (by decide +kernel), (by simp), ⟨_, rfl⟩, rfl, next_of_isSome (by decide +kernel)⟩

/-- One further step, a write of the other register, between the write and the read, for each of the two clauses. -/
theorem witness_LatestCompletedWriteIsRead :
    (∃ t u, exec (.wrConfiguration 0xFFFF) (scenarioB.setScript [.cmd (.port 0x0055000)]) = .next t ∧
      Host.Core.run core 1 t = .next u ∧ u.portOk = true ∧ ∀ m ∈ t.script.take 1, m.mayStore 0 = false) ∧
    (scenarioB.setScript [.cmd (.port 0x000019F)]).inInit = false ∧ (∃ t u, exec (.wrCalibration 0xFFFF) (scenarioB.setScript [.cmd (.port 0x000019F)]) = .next t ∧
      Host.Core.run core 1 t = .next u ∧ u.portOk = true ∧ ∀ m ∈ t.script.take 1, m.mayStore 5 = false) :=
  ⟨⟨_, _, rfl, rfl, rfl, by decide⟩, rfl, _, _, rfl, rfl, rfl, by decide⟩

theorem witness_WireIsBigEndian :
    ((Instr.wrCalibration 4473).access = .write 5 4473 ∧ ∃ t, exec (.wrCalibration 4473) scenarioB = .next t) ∧
    (Instr.rduPower.access = .readUnsigned 3 ∧ ∃ t, exec .rduPower scenarioC = .next t ∧ t.resp = .unsigned 35232) ∧
    (Instr.rdsPower.access = .readSigned 3 ∧ ∃ t, exec .rdsPower scenarioC = .next t ∧ t.resp = .signed (-30304)) :=
  ⟨⟨rfl, next_of_isSome (by decide +kernel)⟩, ⟨rfl, next_of_resp (by decide +kernel)⟩,
    ⟨rfl, next_of_resp (by decide +kernel)⟩⟩

/-- A port command, an INIT whose second write fails and an INIT whose first write fails. -/
theorem witness_TransactionsPerCommand :
    (Instr.rduPower.access ≠ .initialise ∧ scenarioB.inInit = false ∧ ∃ t, exec .rduPower scenarioB = .next t) ∧
    ((Instr.init (1 / 10) 3 1 3 3 3).access = .initialise ∧
      ((viaTransport [good, lost] scenarioB).portOk = true ∧
        ∃ t, exec (.init (1 / 10) 3 1 3 3 3) (viaTransport [good, lost] scenarioB) = .next t) ∧
      ((viaTransport [lost] scenarioB).portOk = false ∧
        ∃ t, exec (.init (1 / 10) 3 1 3 3 3) (viaTransport [lost] scenarioB) = .next t)) :=
  ⟨⟨by decide, rfl, next_of_isSome (by decide +kernel)⟩, rfl, ⟨rfl, next_of_isSome (by decide +kernel)⟩,
    rfl, next_of_isSome (by decide +kernel)⟩

theorem witness_DirectAttachmentNeverFails : scenarioB.params.port = .direct ∧
    (∃ t, exec (.init (1 / 10) 3 1 3 3 3) scenarioB = .next t) ∧
    midInit.params.port = .direct ∧ midInit.inInit = true ∧ ∃ t, proceed midInit = .next t :=
  ⟨rfl, next_of_isSome (by decide +kernel), rfl, rfl, next_of_isSome (by decide +kernel)⟩

theorem witness_OnlyFourDeviceAddressesBind : ((0x40 : BitVec 7) = 0x40 ∨ (0x40 : BitVec 7) = 0x41 ∨ (0x40 : BitVec 7) = 0x44 ∨
    (0x40 : BitVec 7) = 0x45) ∧ ¬ ((0x42 : BitVec 7) = 0x40 ∨ (0x42 : BitVec 7) = 0x41 ∨ (0x42 : BitVec 7) = 0x44 ∨
    (0x42 : BitVec 7) = 0x45) := by decide

theorem witness_TransfersMoveTwoBytes : ([1] : List Byte).length ≠ 2 ∧ ([1, 2, 3, 4] : List Byte).length ≠ 2 ∧ 4 ≠ 2 ∧
    (Instr.wrCalibration 0x1179).access = .write 5 ((0x11 : Byte) ++ (0x79 : Byte)) ∧
    Instr.rduCurrent.access = .readUnsigned 4 := by decide

end Sys2Proof.Tests
end

/-! Family 20 (spec/20_memory.md): reads have no side effects (R57). -/

namespace Sys2Proof.Machine

/-! ### What a derived register's pattern depends on (10_state.md R29) -/

section codes

variable {s u : State}

theorem State.shuntCode_congr (hp : u.params = s.params) (hs : u.vsh = s.vsh) :
    u.shuntCode = s.shuntCode := by
  simp only [State.shuntCode, hp, hs]

theorem State.currentCode_congr (hp : u.params = s.params) (hs : u.vsh = s.vsh) (hc : u.cal = s.cal) :
    u.currentCode = s.currentCode := by
  simp only [State.currentCode, State.shuntCode_congr hp hs, hc]

theorem State.powerCode_congr (hp : u.params = s.params) (hs : u.vsh = s.vsh) (hb : u.vbus = s.vbus)
    (hc : u.cal = s.cal) : u.powerCode = s.powerCode := by
  simp only [State.powerCode, State.currentCode_congr hp hs hc, State.busQ, hb]

/-- CFG is read at address 0 only: at every other address equal parameters, inputs and CAL give one pattern. -/
theorem State.pattern_congr {a : Addr} (hp : u.params = s.params) (hs : u.vsh = s.vsh) (hb : u.vbus = s.vbus)
    (hc : u.cal = s.cal) (ha : a.toNat ≠ 0) : u.pattern a = s.pattern a := by
  unfold State.pattern
  split
  · next h => exact absurd h ha
  · simp only [shuntVoltagePattern, State.shuntCode_congr hp hs]
  · simp only [busVoltagePattern, State.shuntCode_congr hp hs, hb]
  · simp only [powerPattern, State.powerCode_congr hp hs hb hc]
  · simp only [currentPattern, State.currentCode_congr hp hs hc]
  · exact hc
  · rfl

end codes

/-- Settles O15: a read that ends changes the draws, the answer and the bus only (`exec_read_next`), and CFG enters no
derived pattern (`State.pattern_congr`). -/
theorem readsHaveNoSideEffects : Obligations.ReadsHaveNoSideEffects := by
  refine ⟨fun i a s t hi h => ?_, fun s u a hp hs hb hc ha _ => State.pattern_congr hp hs hb hc (by omega)⟩
  obtain ⟨r, x, rfl⟩ := exec_read_next hi h
  exact ⟨s.afterDraw_cfg, s.afterDraw_cal, s.afterDraw_phase, s.afterDraw_params, s.afterDraw_vsh, s.afterDraw_vbus,
    s.afterDraw_script, s.afterDraw_pattern⟩

end Sys2Proof.Machine

/-! Family 40 (spec/40_config_codec.md): the configuration word and the code maps of its enumerations. -/

namespace Sys2Proof

/-! ### The code maps and their inverses (R113) -/

theorem BusVoltageRange.ofCode_code (r : BusVoltageRange) : ofCode r.code = r := by
  cases r <;> rfl

theorem BusVoltageRange.code_ofCode : ∀ c : BitVec 1, (ofCode c).code = c := by decide

theorem Gain.ofCode_code (g : Gain) : ofCode g.code = g := by
  cases g <;> rfl

theorem Gain.code_ofCode : ∀ c : BitVec 2, (ofCode c).code = c := by decide

theorem AdcSetting.ofCode_code (a : AdcSetting) : ofCode a.code = some a := by
  cases a <;> rfl

/-- A code that `AdcName` names is the code of that name. -/
theorem AdcSetting.code_of_mem_ofCode : ∀ c : BitVec 4, ∀ a ∈ ofCode c, a.code = c := by decide

theorem AdcSetting.ofCode_eq_some_iff {c : BitVec 4} {a : AdcSetting} : ofCode c = some a ↔ a.code = c :=
  ⟨code_of_mem_ofCode c a, fun h => h ▸ ofCode_code a⟩

/-- The reserved codes of R91 are 4 to 8. -/
theorem AdcSetting.ofCode_eq_none_iff : ∀ c : BitVec 4, ofCode c = none ↔ 4 ≤ c.toNat ∧ c.toNat ≤ 8 := by decide

/-- The opcode table's row of a register's address names that register (`AddrRow.ofAddr_named`). -/
theorem RegisterAddress.code_injective : Function.Injective code := fun r r' h =>
  AddrRow.named.inj <| calc
    .named r = AddrRow.ofAddr r.code := (AddrRow.ofAddr_named r).symm
    _ = AddrRow.ofAddr r'.code := by rw [h]
    _ = .named r' := AddrRow.ofAddr_named r'

theorem RegisterAddress.exists_code_eq_iff {c : Addr} : (∃ r : RegisterAddress, r.code = c) ↔ c.toNat ≤ 5 := by
  constructor
  · rintro ⟨r, rfl⟩
    cases r <;> decide
  · intro h
    have named : ∀ n : Fin 6, ∃ r : RegisterAddress, r.code.toNat = n := fun
      | 0 => ⟨.configuration, rfl⟩
      | 1 => ⟨.shuntVoltage, rfl⟩
      | 2 => ⟨.busVoltage, rfl⟩
      | 3 => ⟨.power, rfl⟩
      | 4 => ⟨.current, rfl⟩
      | 5 => ⟨.calibration, rfl⟩
    obtain ⟨r, hr⟩ := named ⟨c.toNat, by omega⟩
    exact ⟨r, BitVec.eq_of_toNat_eq hr⟩

theorem DeviceAddress.ofCode_code (d : DeviceAddress) : ofCode d.code = some d := by
  cases d <;> rfl

theorem DeviceAddress.code_injective : Function.Injective code := fun d d' h =>
  Option.some.inj <| calc
    some d = ofCode d.code := (ofCode_code d).symm
    _ = ofCode d'.code := by rw [h]
    _ = some d' := ofCode_code d'

theorem DeviceAddress.exists_code_eq_iff {c : BitVec 7} :
    (∃ d : DeviceAddress, d.code = c) ↔ c = 0x40 ∨ c = 0x41 ∨ c = 0x44 ∨ c = 0x45 := by
  constructor
  · rintro ⟨d, rfl⟩
    cases d <;> decide
  · rintro (rfl | rfl | rfl | rfl)
    exacts [⟨.dev40, rfl⟩, ⟨.dev41, rfl⟩, ⟨.dev44, rfl⟩, ⟨.dev45, rfl⟩]

end Sys2Proof

namespace Sys2Proof.Machine

/-! ### The packed word (R110) -/

/-- A field that fits below bit 16 loses no bit when it is shifted into place. -/
theorem toNat_setWidth_shiftLeft {n k : Nat} (c : BitVec n) (h : n + k ≤ 16) :
    (c.setWidth 16 <<< k).toNat = 2 ^ k * c.toNat := by
  have hc : 2 ^ k * c.toNat < 2 ^ 16 := calc
    2 ^ k * c.toNat < 2 ^ k * 2 ^ n := Nat.mul_lt_mul_of_pos_left c.isLt (Nat.two_pow_pos k)
    _ = 2 ^ (n + k) := by rw [Nat.pow_add, Nat.mul_comm]
    _ ≤ 2 ^ 16 := Nat.pow_le_pow_right (by decide) h
  rw [BitVec.toNat_shiftLeft, BitVec.toNat_setWidth_of_le (by omega), Nat.shiftLeft_eq, Nat.mul_comm, Nat.mod_eq_of_lt hc]

/-- The fields do not overlap: each is a multiple of a power of two that the fields below it together stay under, so
their union is their sum. -/
theorem cfgPack_toNat (r : BusVoltageRange) (g : Gain) (b d : AdcSetting) :
    (cfgPack r g b d).toNat =
      2 ^ 13 * r.code.toNat + (2 ^ 11 * g.code.toNat + (2 ^ 7 * b.code.toNat + (2 ^ 3 * d.code.toNat + 7))) := by
  have hr := r.code.isLt
  have hg := g.code.isLt
  have hb := b.code.isLt
  have hd := d.code.isLt
  rw [Nat.two_pow_add_eq_or_of_lt (by omega), Nat.two_pow_add_eq_or_of_lt (by omega),
    Nat.two_pow_add_eq_or_of_lt (by omega), Nat.two_pow_add_eq_or_of_lt (by omega)]
  simp only [cfgPack, BitVec.toNat_or, Nat.or_assoc, toNat_setWidth_shiftLeft, Nat.reduceAdd, Nat.reduceLeDiff]
  rfl

/-- Settles O28: the sum of `cfgPack_toNat`, with the weights written as numerals. -/
theorem cfgPackPlacesTheCodes : Obligations.CfgPackPlacesTheCodes := by
  intro r g b d
  rw [cfgPack_toNat]
  omega

/-- Settles O30: the tables by evaluation; the range and gain maps have `ofCode` as inverse, `AdcName` inverts `adcCode`
exactly outside codes 4 to 8, and the two address maps are injective onto their tables. -/
theorem codeMapsAreInjectiveOntoTheirTables : Obligations.CodeMapsAreInjectiveOntoTheirTables :=
  ⟨by decide,
    fun c => ⟨.ofCode c, BusVoltageRange.code_ofCode c, fun r h => h ▸ (BusVoltageRange.ofCode_code r).symm⟩,
    fun c => ⟨.ofCode c, Gain.code_ofCode c, fun g h => h ▸ (Gain.ofCode_code g).symm⟩,
    fun _ _ => AdcSetting.ofCode_eq_some_iff, AdcSetting.ofCode_eq_none_iff,
    fun _ => RegisterAddress.exists_code_eq_iff, fun _ _ h => RegisterAddress.code_injective h,
    fun _ => DeviceAddress.exists_code_eq_iff, fun _ _ h => DeviceAddress.code_injective h⟩

end Sys2Proof.Machine

/-! Family 41 (spec/41_register_port.md): RDU and RDS of one address return the same 16 bits (R134). -/

namespace Sys2Proof.Machine

/-! ### A read whose transaction completes (R132, R133) -/

section completingRead

variable {i : Instr} {a : Addr} {s : State}

theorem exec_readUnsigned_completes (hi : i.access = .readUnsigned a) (hp : s.portOk = true) (hr : s.readable a = true) :
    exec i s = .next { s.afterDraw with
      resp := .unsigned (s.pattern a).toNat, bus := [readTxn a (some (s.pattern a))] } := by
  rw [exec_of_readUnsigned hi, portReadUnsigned_eq, if_pos hp, if_pos hr]

theorem exec_readSigned_completes (hi : i.access = .readSigned a) (hp : s.portOk = true) (hr : s.readable a = true) :
    exec i s = .next { s.afterDraw with
      resp := .signed (sext16 (s.pattern a)), bus := [readTxn a (some (s.pattern a))] } := by
  rw [exec_of_readSigned hi, portReadSigned_eq, if_pos hp, if_pos hr]

end completingRead

/-- Settles O14: both reads answer the one pattern, RDU as `zext_16` and RDS as `sext_16` of it; `sext16_emod` gives the
bits back, and the signed reading is `sext16` written out. -/
theorem rduAndRdsReturnTheSameBits : Obligations.RduAndRdsReturnTheSameBits := by
  intro i j a s u hi hj hpat hps hpu hrs hru
  have hsigned := exec_readSigned_completes hj hpu hru
  rw [hpat] at hsigned
  exact ⟨_, _, _, _, exec_readUnsigned_completes hi hps hrs, hsigned, rfl, rfl, (sext16_emod _).symm, rfl⟩

end Sys2Proof.Machine

/-! Family 43 (spec/43_scaling_engine.md): writes store masked words (R180 to R182), CFG stays out of the datapath (R183),
and reads return the patterns of the stored, derived and unmapped registers (R196 to R202). -/

namespace Sys2Proof.Machine

section completingAccess

variable {i : Instr} {a : Addr} {v w : Word} {s : State}

/-! ### A write whose transaction completes (R131) -/

theorem exec_write_completes (hi : i.access = .write a v) (hp : s.portOk = true) :
    exec i s = .next { writeReg a v s.afterDraw with resp := .done, bus := [writeTxn a v true] } := by
  rw [exec_of_write hi, portWrite_eq, if_pos hp]

theorem exec_wrConfiguration_completes (hp : s.portOk = true) :
    exec (.wrConfiguration v) s = .next { s.afterDraw with
      cfg := v &&& 0xBFFF, resp := .done, bus := [writeTxn 0 v true] } := by
  rw [exec_write_completes rfl hp, writeReg_eq, if_pos rfl]; rfl

theorem exec_wrCalibration_completes (hp : s.portOk = true) :
    exec (.wrCalibration v) s = .next { s.afterDraw with
      cal := v &&& 0xFFFE, resp := .done, bus := [writeTxn 5 v true] } := by
  rw [exec_write_completes rfl hp, writeReg_eq, if_neg (by decide), if_pos rfl]; rfl

/-! ### Patterns (R196 to R202) -/

theorem State.setCfg_pattern (ha : a ≠ 0) : (s.setCfg w).pattern a = s.pattern a :=
  State.pattern_congr rfl rfl rfl rfl (mt (addr_zero_iff a).1 ha)

theorem State.pattern_unmapped (ha : 6 ≤ a.toNat) : s.pattern a = 0 := by
  unfold State.pattern
  split
  case h_7 => rfl
  all_goals omega

/-- The stored and the unmapped registers are read whatever the analog inputs are. -/
theorem State.readable_of_not_derived (ha : ¬ (1 ≤ a.toNat ∧ a.toNat ≤ 4)) : s.readable a = true :=
  (readable_iff s a).2 fun h => absurd h ha

/-- The truncation law (43_scaling_engine.md section 4): a multiple of 2^32 in the product is one of 2^20 in the code. -/
theorem currentCode_emod (k : Int) (cal : Word) : currentCode k cal % 65536 = (k * cal.toNat / 4096) % 65536 := by
  simp only [currentCode, curProd, asr_eq_ediv, wrap32]
  omega

/-! ### Reads of a register that presents the low 16 bits of a code -/

theorem exec_readUnsigned_code {z : Int} (hi : i.access = .readUnsigned a) (hp : s.portOk = true)
    (hr : s.readable a = true) (hz : s.pattern a = low16 z) :
    ∃ t n, exec i s = .next t ∧ t.resp = .unsigned n ∧ (n : Int) = z % 65536 :=
  ⟨_, _, exec_readUnsigned_completes hi hp hr, rfl, by rw [hz, low16_toNat]⟩

theorem exec_readSigned_code {z : Int} (hi : i.access = .readSigned a) (hp : s.portOk = true)
    (hr : s.readable a = true) (hz : s.pattern a = low16 z) :
    ∃ t y, exec i s = .next t ∧ t.resp = .signed y ∧ -32768 ≤ y ∧ y ≤ 32767 ∧ y % 65536 = z % 65536 := by
  obtain ⟨hlo, hhi⟩ := sext16_range (s.pattern a)
  exact ⟨_, _, exec_readSigned_completes hi hp hr, rfl, hlo, hhi, by rw [sext16_emod, hz, low16_toNat]⟩

end completingAccess

/-! ### CFG beside a read (R183) -/

/-- An outcome with its next state passed through `f`; a refusal stays. -/
def mapNext (f : State → State) : Result State → Result State
  | .next t => .next (f t)
  | .fault e => .fault e
  | .refused r => .refused r

section configuration

variable {i : Instr} {a : Addr} (w : Word) (s : State)

/-- A read of any register but CONFIGURATION ends the same way with another word in CFG, and leaves that word there. -/
theorem readFinish_setCfg (ha : a ≠ 0) (op : PortOp) (k : Word → Response) :
    (memRead op a (s.setCfg w).begin).finish id (fun p t => t.answer (k p)) =
      mapNext (·.setCfg w) ((memRead op a s.begin).finish id (fun p t => t.answer (k p))) := by
  have hr : (s.setCfg w).readable a = s.readable a := rfl
  rw [readFinish_eq, readFinish_eq, State.setCfg_portOk, hr, State.setCfg_pattern ha, State.setCfg_afterDraw]
  cases s.portOk <;> cases s.readable a <;> rfl

theorem runMeasurement_setCfg (ha : a ≠ 0) (op : PortOp) (scale : CalState → Word → Response) :
    runMeasurement op a scale (s.setCfg w) = mapNext (·.setCfg w) (runMeasurement op a scale s) := by
  unfold runMeasurement
  rw [State.setCfg_phase]
  cases s.phase with
  | ready c => exact readFinish_setCfg w s ha op (scale c)
  | uninit | cfgWritten _ | failed => rfl

/-- The scaling of a measurement is one function, the same in every state. -/
theorem exists_scale_of_measurement {op : PortOp} (hi : i.access = .measurement op a) :
    ∃ scale : CalState → Word → Response, ∀ s, exec i s = runMeasurement op a scale s := by
  cases i <;> simp only [Instr.access, Access.measurement.injEq, reduceCtorEq] at hi <;> obtain ⟨rfl, rfl⟩ := hi <;>
    exact ⟨_, fun _ => rfl⟩

theorem exec_read_setCfg (ha : a ≠ 0)
    (hi : i.access = .readUnsigned a ∨ i.access = .readSigned a ∨ ∃ op, i.access = .measurement op a) :
    exec i (s.setCfg w) = mapNext (·.setCfg w) (exec i s) := by
  rcases hi with hi | hi | ⟨op, hi⟩
  · rw [exec_of_readUnsigned hi, exec_of_readUnsigned hi]
    exact readFinish_setCfg w s ha _ _
  · rw [exec_of_readSigned hi, exec_of_readSigned hi]
    exact readFinish_setCfg w s ha _ _
  · obtain ⟨scale, hscale⟩ := exists_scale_of_measurement hi
    rw [hscale, hscale]
    exact runMeasurement_setCfg w s ha op scale

end configuration

/-! ### The statements -/

/-- Settles O10: `writeReg` is the identity outside addresses 0 and 5. -/
theorem wrElsewhereHasNoEffect : Obligations.WrElsewhereHasNoEffect := by
  intro i a v s hi h0 h5 hp
  rw [exec_write_completes hi hp, writeReg_eq, if_neg h0, if_neg h5]
  rfl

/-- Settles O17: addresses 0 and 5 are readable for any inputs and present the stored words; `sext_16` is the two's
complement reading. -/
theorem storedRegistersReadAsStored : Obligations.StoredRegistersReadAsStored := by
  refine ⟨fun s hp => ?_, fun p => ⟨rfl, rfl⟩⟩
  have hcfg : s.readable 0 = true := State.readable_of_not_derived (by decide)
  have hcal : s.readable 5 = true := State.readable_of_not_derived (by decide)
  exact ⟨⟨_, exec_readUnsigned_completes rfl hp hcfg, rfl⟩,
    ⟨_, exec_readSigned_completes rfl hp hcfg, congrArg Response.signed (sext16_eq_toInt s.cfg)⟩,
    ⟨_, exec_readUnsigned_completes rfl hp hcal, rfl⟩,
    ⟨_, exec_readSigned_completes rfl hp hcal, congrArg Response.signed (sext16_eq_toInt s.cal)⟩⟩

/-- Settles O18: the pattern is `low16(shuntCode)`, and two s16 values with one residue modulo 65536 are equal. -/
theorem shuntVoltageReadsTheCode : Obligations.ShuntVoltageReadsTheCode := by
  intro s k hk hp hr
  have hpat : s.pattern 1 = low16 k := congrArg low16 hk.symm
  obtain ⟨t, z, ht, hz, hlo, hhi, hmod⟩ := exec_readSigned_code (i := .rdsShuntVoltage) rfl hp hr hpat
  refine ⟨exec_readUnsigned_code rfl hp hr hpat, ?_⟩
  exact ⟨t, z, ht, hz, hmod, hlo, hhi, fun _ _ => by omega⟩

/-- Settles O20: the pattern is `low16(currentCode)`, which the truncation law (`currentCode_emod`) frees of the wrap. -/
theorem currentReadsTheExactProduct : Obligations.CurrentReadsTheExactProduct := by
  rintro s k rfl hp hr
  rw [← currentCode_emod]
  exact ⟨exec_readUnsigned_code rfl hp hr rfl, exec_readSigned_code rfl hp hr rfl⟩

/-- Settles O24: an unmapped address is readable for any inputs and presents the pattern 0. -/
theorem unmappedReadsReturnZero : Obligations.UnmappedReadsReturnZero := by
  intro i a s ha hp
  have hr : s.readable a = true := State.readable_of_not_derived (by omega)
  constructor
  · intro hi
    rw [exec_readUnsigned_completes hi hp hr, State.pattern_unmapped ha]
    rfl
  · intro hi
    rw [exec_readSigned_completes hi hp hr, State.pattern_unmapped ha]
    rfl

/-- Settles O25: replacing CFG commutes with every such command (`exec_read_setCfg`). -/
theorem configurationDoesNotEnterTheDatapath : Obligations.ConfigurationDoesNotEnterTheDatapath := by
  intro i a s w ha hi
  have hcomm := exec_read_setCfg w s ha hi
  exact ⟨fun t ht => hcomm.trans (by rw [ht]; rfl), fun r hr => hcomm.trans (by rw [hr]; rfl)⟩

/-- Settles O8: the masked word lands in CFG, which is read at address 0 only (`State.setCfg_pattern`). -/
theorem wrConfigurationStoresMasked : Obligations.WrConfigurationStoresMasked := by
  intro v s hp
  refine ⟨exec_wrConfiguration_completes hp, fun t ht => ?_⟩
  rw [exec_wrConfiguration_completes hp] at ht
  cases ht
  exact ⟨rfl, fun a ha => (State.setCfg_pattern ha).trans (s.afterDraw_pattern a)⟩

/-- Settles O9: after the write the machine presents what it would with the masked word in CAL, and CURRENT and POWER
are computed from CAL at the read. -/
theorem wrCalibrationStoresMasked : Obligations.WrCalibrationStoresMasked := by
  intro v s hp
  refine ⟨exec_wrCalibration_completes hp, fun t ht => ?_⟩
  rw [exec_wrCalibration_completes hp] at ht
  cases ht
  have hread (a : Addr) : (s.afterDraw.setCal (v &&& 0xFFFE)).pattern a = (s.setCal (v &&& 0xFFFE)).pattern a := by
    rw [← State.setCal_afterDraw, State.afterDraw_pattern]
  exact ⟨rfl, hread 4, hread 3⟩

end Sys2Proof.Machine

/-! Family 30 (spec/30_encoding.md): the decoder and the encoder are inverse up to ignored fields (R80, R84, D28), and the
reserved codes are rejected (R95). -/

namespace Sys2Proof

/-! ### What decoding a word can give -/

/-- A format P word decodes by its `op`; every address is admitted, and only `op = 3` is reserved. -/
theorem decode_port_cases (w : PortWord) :
    (w.extractLsb' 24 2 = 0 ∧
      decode (.port w) = .ok (Instr.ofWr (AddrRow.ofAddr (w.extractLsb' 16 8)) (w.extractLsb' 0 16))) ∨
    (w.extractLsb' 24 2 = 1 ∧ decode (.port w) = .ok (Instr.ofRdu (AddrRow.ofAddr (w.extractLsb' 16 8)))) ∨
    (w.extractLsb' 24 2 = 2 ∧ decode (.port w) = .ok (Instr.ofRds (AddrRow.ofAddr (w.extractLsb' 16 8)))) ∨
    (w.extractLsb' 24 2 = 3 ∧ decode (.port w) = .error .reservedOp) := by
  have hop : ∀ op : BitVec 2, op = 0 ∨ op = 1 ∨ op = 2 ∨ op = 3 := by decide
  simp only [decode, decodePort]
  rcases hop (w.extractLsb' 24 2) with h | h | h | h <;> simp [h]

/-- A format S word decodes by its `cmd`; `cmd` 5, 6 and 7 are reserved. -/
theorem decode_seq_cases (w : SeqWord) (rsh imax : Rat) :
    (w.extractLsb' 11 3 = 0 ∧ decode (.seq w rsh imax) =
      .ok (.init rsh imax (w.extractLsb' 10 1) (w.extractLsb' 8 2) (w.extractLsb' 4 4) (w.extractLsb' 0 4))) ∨
    (w.extractLsb' 11 3 = 1 ∧ decode (.seq w rsh imax) = .ok .getsv) ∨
    (w.extractLsb' 11 3 = 2 ∧ decode (.seq w rsh imax) = .ok .getbv) ∨
    (w.extractLsb' 11 3 = 3 ∧ decode (.seq w rsh imax) = .ok .geti) ∨
    (w.extractLsb' 11 3 = 4 ∧ decode (.seq w rsh imax) = .ok .getp) ∨
    (5 ≤ (w.extractLsb' 11 3).toNat ∧ decode (.seq w rsh imax) = .error .reservedCmd) := by
  have hcmd : ∀ cmd : BitVec 3,
      cmd = 0 ∨ cmd = 1 ∨ cmd = 2 ∨ cmd = 3 ∨ cmd = 4 ∨ cmd = 5 ∨ cmd = 6 ∨ cmd = 7 := by decide
  simp only [decode, decodeSeq]
  rcases hcmd (w.extractLsb' 11 3) with h | h | h | h | h | h | h | h <;> simp [h]

/-! ### Words from their fields -/

theorem encode_ofWr (row : AddrRow) (data : Word) : encode (Instr.ofWr row data) = portWord 0 row data := by
  cases row with
  | named r => cases r <;> rfl
  | unmapped6 | unmapped8 | unmapped16 | unmapped32 | unmapped64 | unmapped128 => rfl

theorem encode_ofRdu (row : AddrRow) : encode (Instr.ofRdu row) = portWord 1 row 0 := by
  cases row with
  | named r => cases r <;> rfl
  | unmapped6 | unmapped8 | unmapped16 | unmapped32 | unmapped64 | unmapped128 => rfl

theorem encode_ofRds (row : AddrRow) : encode (Instr.ofRds row) = portWord 2 row 0 := by
  cases row with
  | named r => cases r <;> rfl
  | unmapped6 | unmapped8 | unmapped16 | unmapped32 | unmapped64 | unmapped128 => rfl

/-- A format P word built from a word's own `op` and address keeps that word's upper ten bits. -/
theorem portWord_ofAddr (w : PortWord) (data : Word) :
    portWord (w.extractLsb' 24 2) (AddrRow.ofAddr (w.extractLsb' 16 8)) data = .port (w.extractLsb' 16 10 ++ data) := by
  have hfields : w.extractLsb' 24 2 ++ w.extractLsb' 16 8 = w.extractLsb' 16 10 :=
    BitVec.extractLsb'_append_extractLsb'_eq_extractLsb' rfl
  rw [portWord, AddrRow.addr_ofAddr, hfields]

theorem portWord_fields (w : PortWord) :
    portWord (w.extractLsb' 24 2) (AddrRow.ofAddr (w.extractLsb' 16 8)) (w.extractLsb' 0 16) = .port w := by
  have hfields : w.extractLsb' 16 10 ++ w.extractLsb' 0 16 = w.extractLsb' 0 26 :=
    BitVec.extractLsb'_append_extractLsb'_eq_extractLsb' rfl
  rw [portWord_ofAddr, hfields, BitVec.extractLsb'_eq_self]

theorem seqWord_fields (w : SeqWord) :
    seqWord (w.extractLsb' 11 3) (w.extractLsb' 10 1) (w.extractLsb' 8 2) (w.extractLsb' 4 4) (w.extractLsb' 0 4) = w := by
  have h10 : w.extractLsb' 11 3 ++ w.extractLsb' 10 1 = w.extractLsb' 10 4 :=
    BitVec.extractLsb'_append_extractLsb'_eq_extractLsb' rfl
  have h8 : w.extractLsb' 10 4 ++ w.extractLsb' 8 2 = w.extractLsb' 8 6 :=
    BitVec.extractLsb'_append_extractLsb'_eq_extractLsb' rfl
  have h4 : w.extractLsb' 8 6 ++ w.extractLsb' 4 4 = w.extractLsb' 4 10 :=
    BitVec.extractLsb'_append_extractLsb'_eq_extractLsb' rfl
  have h0 : w.extractLsb' 4 10 ++ w.extractLsb' 0 4 = w.extractLsb' 0 14 :=
    BitVec.extractLsb'_append_extractLsb'_eq_extractLsb' rfl
  rw [seqWord, h10, h8, h4, h0, BitVec.extractLsb'_eq_self]

/-! ### The statements -/

/-- Settles O1: a port command's word is `portWord` of its row, which `decodePort_fields` reads back; INIT's fields by
`seqWord_init_fields`; the measurements' words are constants. -/
theorem decodeEncodeRoundTrip : Obligations.DecodeEncodeRoundTrip := by
  intro i
  cases i with
  | wrConfiguration | wrShuntVoltage | wrBusVoltage | wrPower | wrCurrent | wrCalibration | wrUnmapped6 | wrUnmapped8
    | wrUnmapped16 | wrUnmapped32 | wrUnmapped64 | wrUnmapped128 => exact decodePort_fields 0 _ _
  | rduConfiguration | rduShuntVoltage | rduBusVoltage | rduPower | rduCurrent | rduCalibration | rduUnmapped6
    | rduUnmapped8 | rduUnmapped16 | rduUnmapped32 | rduUnmapped64 | rduUnmapped128 => exact decodePort_fields 1 _ _
  | rdsConfiguration | rdsShuntVoltage | rdsBusVoltage | rdsPower | rdsCurrent | rdsCalibration | rdsUnmapped6
    | rdsUnmapped8 | rdsUnmapped16 | rdsUnmapped32 | rdsUnmapped64 | rdsUnmapped128 => exact decodePort_fields 2 _ _
  | init rsh imax range gain badc sadc =>
    obtain ⟨hcmd, hrange, hgain, hbadc, hsadc⟩ := seqWord_init_fields range gain badc sadc
    simp only [encode, decode, decodeSeq, hcmd, hrange, hgain, hbadc, hsadc]
    rfl
  | getsv | getbv | geti | getp => rfl

/-- Settles O2: a decoded command's word is put together again from its own fields, with the `data` of a read and the
fields of a measurement at 0. -/
theorem encodeDecodeIsCanonical : Obligations.EncodeDecodeIsCanonical := by
  intro c i hdec
  cases c with
  | port w =>
    rcases decode_port_cases w with ⟨hop, h⟩ | ⟨hop, h⟩ | ⟨hop, h⟩ | ⟨hop, h⟩ <;> rw [h] at hdec <;> cases hdec
    · rw [encode_ofWr, ← hop, portWord_fields, Command.canonical, if_pos hop]
    · rw [encode_ofRdu, ← hop, portWord_ofAddr, Command.canonical, if_neg (by rw [hop]; decide)]
    · rw [encode_ofRds, ← hop, portWord_ofAddr, Command.canonical, if_neg (by rw [hop]; decide)]
  | seq w rsh imax =>
    rcases decode_seq_cases w rsh imax with ⟨hcmd, h⟩ | ⟨hcmd, h⟩ | ⟨hcmd, h⟩ | ⟨hcmd, h⟩ | ⟨hcmd, h⟩ | ⟨hcmd, h⟩ <;>
      rw [h] at hdec <;> cases hdec
    · rw [encode, ← hcmd, seqWord_fields, Command.canonical, if_pos hcmd]
    all_goals rw [Command.canonical, hcmd]; rfl

/-- Settles O3: the reserved codes are the last case of each decoding; outside INIT a step on a command decodes it. -/
theorem reservedWordsAreRefused : Obligations.ReservedWordsAreRefused := by
  refine ⟨fun w => ?_, fun w rsh imax => ?_, fun s c ms e hs hi hdec => ?_⟩
  · rcases decode_port_cases w with ⟨hop, h⟩ | ⟨hop, h⟩ | ⟨hop, h⟩ | ⟨hop, h⟩ <;> simp [h, hop]
  · rcases decode_seq_cases w rsh imax with ⟨hcmd, h⟩ | ⟨hcmd, h⟩ | ⟨hcmd, h⟩ | ⟨hcmd, h⟩ | ⟨hcmd, h⟩ | ⟨hcmd, h⟩
    case inr.inr.inr.inr.inr => exact iff_of_true h hcmd
    all_goals simp [h, hcmd]
  · rw [Machine.step_cons hs (by rw [hi]; rfl)]
    simp only [Machine.runMove, Machine.runCommand, hdec]

/-- Settles O4: each word is evaluated. -/
theorem writtenWordsDecode : Obligations.WrittenWordsDecode :=
  ⟨rfl, rfl, rfl, rfl, rfl, rfl, rfl, rfl, rfl⟩

end Sys2Proof

/-! The machine as a whole (spec/10_state.md, spec/42_sequencer.md R154): what a command and a step change, the invariant
every step keeps (R23, R32), and the latest completed write (spec/20_memory.md section 5). -/

namespace Sys2Proof.Machine

variable {s t u : State} {i : Instr} {a : Addr} {v : Word}

/-! ### The draw of a transaction (60_exceptions.md R220) -/

theorem State.afterDraw_drawn (s : State) : s.afterDraw.drawn = s.drawn ∨ s.afterDraw.drawn = s.drawn + 1 := by
  unfold State.afterDraw
  split
  · exact .inl rfl
  · exact .inr rfl

theorem State.portOk_direct (hd : s.params.port = .direct) : s.portOk = true := by
  simp only [State.portOk, hd]

theorem State.afterDraw_direct (hd : s.params.port = .direct) : s.afterDraw = s := by
  simp only [State.afterDraw, hd]

theorem State.inInit_congr (hp : t.phase = s.phase) : t.inInit = s.inInit := by
  simp only [State.inInit, hp]

/-! ### What a command that ends can have done -/

/-- Every instruction writes, reads once, or is INIT. -/
theorem Instr_write_read_or_init (i : Instr) : (∃ a v, i.access = .write a v) ∨
    (∃ a, i.access = .readUnsigned a ∨ i.access = .readSigned a ∨ ∃ op, i.access = .measurement op a) ∨
    i.access = .initialise := by
  rcases Instr_access_cases i with ⟨a, v, hi⟩ | ⟨a, hi⟩ | ⟨a, hi⟩ | hi | ⟨op, a, hi⟩
  · exact .inl ⟨a, v, hi⟩
  · exact .inr (.inl ⟨a, .inl hi⟩)
  · exact .inr (.inl ⟨a, .inr (.inl hi)⟩)
  · exact .inr (.inr hi)
  · exact .inr (.inl ⟨a, .inr (.inr ⟨op, hi⟩)⟩)

/-- An INIT that ends its step had positive operands and issued its first transaction. -/
theorem exec_initialise_next (hi : i.access = .initialise) (h : exec i s = .next t) :
    ∃ w rsh imax, 0 < rsh ∧ 0 < imax ∧ startInit w (CalState.compute rsh imax) s = .next t := by
  rcases exec_of_initialise hi s with e | ⟨rsh, imax, r, g, b, d, hr, hm, e⟩ <;> rw [e] at h
  · cases h
  · exact ⟨_, rsh, imax, hr, hm, h⟩

/-- A read or a measurement that ends is one read transaction, with a result that is no failure. -/
theorem exec_read_finish
    (hi : i.access = .readUnsigned a ∨ i.access = .readSigned a ∨ ∃ op, i.access = .measurement op a)
    (h : exec i s = .next t) : ∃ (op : PortOp) (k : Word → Response), (∀ p e, k p ≠ .ioFailure e) ∧
      (memRead op a s.begin).finish id (fun p t => t.answer (k p)) = .next t := by
  rcases hi with hi | hi | ⟨op, hi⟩
  · rw [exec_of_readUnsigned hi] at h
    exact ⟨_, _, fun _ _ => Response.noConfusion, h⟩
  · rw [exec_of_readSigned hi] at h
    exact ⟨_, _, fun _ _ => Response.noConfusion, h⟩
  · obtain ⟨scale, e, hscale⟩ := exec_of_measurement hi s
    rw [e] at h
    obtain ⟨c, -, h⟩ := runMeasurement_next h
    refine ⟨op, scale c, fun p f hf => ?_, h⟩
    obtain ⟨code, weight, hm⟩ := hscale c p
    rw [hm] at hf
    cases hf

/-- A command that ends has made its draw and issued one transaction, and has left the inputs, the parameters and the
script alone. -/
theorem exec_next (h : exec i s = .next t) :
    ∃ cfg cal phase resp x, t = { s.afterDraw with cfg, cal, phase, resp, bus := [x] } := by
  rcases Instr_write_read_or_init i with ⟨a, v, hi⟩ | ⟨a, hi⟩ | hi
  · rw [exec_of_write hi] at h
    obtain ⟨r, x, rfl | rfl, -⟩ := portWrite_next h
    · rw [writeReg_frame]; exact ⟨_, _, _, _, _, rfl⟩
    · exact ⟨_, _, _, _, _, rfl⟩
  · obtain ⟨r, x, rfl⟩ := exec_read_next hi h
    exact ⟨_, _, _, _, _, rfl⟩
  · obtain ⟨w, rsh, imax, -, -, h⟩ := exec_initialise_next hi h
    rcases startInit_next h with ⟨-, rfl⟩ | ⟨-, k, -, rfl⟩ <;> exact ⟨_, _, _, _, _, rfl⟩

/-- A command that ends stores masked words only, in CFG by a WR of it or by INIT, in CAL by a WR of it. -/
theorem exec_stores (h : exec i s = .next t) :
    (t.cfg = s.cfg ∨ ∃ v, t.cfg = v &&& 0xBFFF ∧ (i.access = .write 0 v ∨ i.access = .initialise)) ∧
    (t.cal = s.cal ∨ ∃ v, t.cal = v &&& 0xFFFE ∧ i.access = .write 5 v) := by
  rcases Instr_write_read_or_init i with ⟨a, v, hi⟩ | ⟨a, hi⟩ | hi
  · rw [exec_of_write hi] at h
    obtain ⟨-, -, -, hcfg, hcal⟩ := portWrite_regs h
    exact ⟨hcfg.imp_right fun ⟨ha, hv⟩ => ⟨v, hv, .inl (ha ▸ hi)⟩, hcal.imp_right fun ⟨ha, hv⟩ => ⟨v, hv, ha ▸ hi⟩⟩
  · obtain ⟨r, x, rfl⟩ := exec_read_next hi h
    exact ⟨.inl s.afterDraw_cfg, .inl s.afterDraw_cal⟩
  · obtain ⟨w, rsh, imax, -, -, h⟩ := exec_initialise_next hi h
    rcases startInit_next h with ⟨-, rfl⟩ | ⟨-, k, rfl | rfl, rfl⟩
    · exact ⟨.inr ⟨w, rfl, .inr hi⟩, .inl s.afterDraw_cal⟩
    · exact ⟨.inl rfl, .inl s.afterDraw_cal⟩
    · exact ⟨.inr ⟨w, rfl, .inr hi⟩, .inl s.afterDraw_cal⟩

/-- A command whose transaction completes does not answer a failure. -/
theorem exec_resp_of_portOk (hp : s.portOk = true) (h : exec i s = .next t) (e : IOFailure) : t.resp ≠ .ioFailure e := by
  have hfail : s.portOk ≠ false := by rw [hp]; decide
  rcases Instr_write_read_or_init i with ⟨a, v, hi⟩ | ⟨a, hi⟩ | hi
  · rw [exec_of_write hi] at h
    obtain ⟨r, x, ht, ⟨rfl, -⟩ | ⟨-, hf⟩, -⟩ := portWrite_next h
    · rcases ht with rfl | rfl <;> exact Response.noConfusion
    · exact absurd hf hfail
  · obtain ⟨op, k, hk, h⟩ := exec_read_finish hi h
    rcases readFinish_next h with ⟨-, -, rfl⟩ | ⟨hf, -⟩
    · exact hk _ e
    · exact absurd hf hfail
  · obtain ⟨w, rsh, imax, -, -, h⟩ := exec_initialise_next hi h
    rcases startInit_next h with ⟨-, rfl⟩ | ⟨hf, -⟩
    · exact Response.noConfusion
    · exact absurd hf hfail

/-- An INIT that ends its step has completed its first write and gone on to CFG_WRITTEN, or has FAILED. -/
theorem exec_initialise_phase (hi : i.access = .initialise) (h : exec i s = .next t) :
    (s.portOk = true ∧ ∃ c, t.phase = .cfgWritten c) ∨
    (s.portOk = false ∧ t.phase = .failed ∧ t.resp = .ioFailure ⟨.wr, 0⟩) := by
  obtain ⟨w, rsh, imax, -, -, h⟩ := exec_initialise_next hi h
  rcases startInit_next h with ⟨hp, rfl⟩ | ⟨hp, k, -, rfl⟩
  · exact .inl ⟨hp, _, rfl⟩
  · exact .inr ⟨hp, rfl, rfl⟩

/-! ### What the sequencer's own step can have done -/

/-- The sequencer leaves the parameters, the script and CFG alone. -/
theorem proceed_frame (h : proceed s = .next t) : t.params = s.params ∧ t.script = s.script ∧ t.cfg = s.cfg := by
  rcases proceed_next h with ⟨-, rfl⟩ | ⟨c, -, -, rfl⟩ | ⟨c, k, -, -, -, rfl⟩
  · exact ⟨rfl, rfl, rfl⟩
  all_goals exact ⟨s.afterDraw_params, s.afterDraw_script, s.afterDraw_cfg⟩

theorem proceed_outside_next (hi : s.inInit = false) (h : proceed s = .next t) : t = s := by
  rw [proceed_outside s hi] at h
  cases h
  rfl

/-- INIT's second transaction ends it. -/
theorem proceed_phase {c : CalState} (hc : s.phase = .cfgWritten c) (h : proceed s = .next t) :
    t.phase = .ready c ∨ t.phase = .failed := by
  have hi : s.inInit = true := (inInit_iff s).2 ⟨c, hc⟩
  rcases proceed_next h with ⟨hout, -⟩ | ⟨k, hk, -, rfl⟩ | ⟨k, x, -, -, -, rfl⟩
  · rw [hi] at hout; cases hout
  · rw [hc] at hk
    cases hk
    exact .inl rfl
  · exact .inr rfl

/-! ### What a step that ends can have done, by the agent that acted (00_scope.md R7) -/

/-- The instruction a move of the caller stands for: a command's, or the WR or RDU of a byte transfer. -/
def Move.Issues : Move → Instr → Prop
  | .cmd c, i => decode c = .ok i
  | .transfer (.write a _), i => ∃ v, i.access = .write a v
  | .transfer (.read a _), i => i.access = .readUnsigned a
  | .env _ _, _ => False
  | .clash _ _, _ => False
  | .resetBlock, _ => False
  | .resetSequencer, _ => False
  | .proceed, _ => False

theorem access_ofWr (row : AddrRow) (v : Word) : (Instr.ofWr row v).access = .write row.addr v := by
  cases row with
  | named r => cases r <;> rfl
  | unmapped6 a => rw [unmapped6_addr]; rfl
  | unmapped8 a => rw [unmapped8_addr]; rfl
  | unmapped16 a => rw [unmapped16_addr]; rfl
  | unmapped32 a => rw [unmapped32_addr]; rfl
  | unmapped64 a => rw [unmapped64_addr]; rfl
  | unmapped128 a => rw [unmapped128_addr]; rfl

theorem access_ofRdu (row : AddrRow) : (Instr.ofRdu row).access = .readUnsigned row.addr := by
  cases row with
  | named r => cases r <;> rfl
  | unmapped6 a => rw [unmapped6_addr]; rfl
  | unmapped8 a => rw [unmapped8_addr]; rfl
  | unmapped16 a => rw [unmapped16_addr]; rfl
  | unmapped32 a => rw [unmapped32_addr]; rfl
  | unmapped64 a => rw [unmapped64_addr]; rfl
  | unmapped128 a => rw [unmapped128_addr]; rfl

/-- Every address has its WR (30_encoding.md R94). -/
theorem exists_access_write (a : Addr) (v : Word) : ∃ i : Instr, i.access = .write a v :=
  ⟨_, (access_ofWr (AddrRow.ofAddr a) v).trans (by rw [AddrRow.addr_ofAddr])⟩

theorem exists_access_readUnsigned (a : Addr) : ∃ i : Instr, i.access = .readUnsigned a :=
  ⟨_, (access_ofRdu (AddrRow.ofAddr a)).trans (by rw [AddrRow.addr_ofAddr])⟩

/-- A step that ends is the sequencer's, with the script as it was or its own move taken; or the caller's command, outside
INIT; or a move of the environment. A byte transfer that ends counts as the command it acts as. -/
theorem step_next_by_agent (h : step s = .next t) :
    (∃ ms, (s.script = ms ∨ s.script = .proceed :: ms) ∧ proceed (s.setScript ms) = .next t) ∨
    (∃ m ms i, s.script = m :: ms ∧ s.inInit = false ∧ m.Issues i ∧ exec i (s.setScript ms) = .next t) ∨
    (∃ x y ms, s.script = .env x y :: ms ∧ t = (s.setScript ms).setInputs x y) ∨
    (∃ ms, s.script = .resetBlock :: ms ∧ t = resetBlock (s.setScript ms)) ∨
    (∃ ms, s.script = .resetSequencer :: ms ∧ t = resetSequencer (s.setScript ms)) := by
  rcases step_next h with ⟨h, -⟩ | ⟨m, ms, hs, ⟨hi, c, i, rfl, hd, h⟩ | ⟨hi, a, hb, lb, rfl, h⟩ | ⟨hi, a, n, rfl, h⟩ |
    ⟨x, y, rfl, rfl⟩ | ⟨rfl, rfl⟩ | ⟨rfl, rfl⟩ | ⟨rfl, h⟩⟩
  · exact .inl ⟨s.script, .inl rfl, h⟩
  · exact .inr (.inl ⟨_, ms, i, hs, hi, hd, h⟩)
  · obtain ⟨i, ha⟩ := exists_access_write a (hb ++ lb)
    exact .inr (.inl ⟨_, ms, i, hs, hi, ⟨_, ha⟩, by rwa [exec_of_write ha]⟩)
  · obtain ⟨i, ha⟩ := exists_access_readUnsigned a
    exact .inr (.inl ⟨_, ms, i, hs, hi, ha, by rwa [exec_of_readUnsigned ha]⟩)
  · exact .inr (.inr (.inl ⟨x, y, ms, hs, rfl⟩))
  · exact .inr (.inr (.inr (.inl ⟨ms, hs, rfl⟩)))
  · exact .inr (.inr (.inr (.inr ⟨ms, hs, rfl⟩)))
  · exact .inl ⟨ms, .inr hs, h⟩

/-- A move that may not store at `a` issues no WR of `a` and no INIT. -/
theorem Move.Issues.not_store {m : Move} (hm : m.Issues i) (hq : m.mayStore a = false) :
    (∀ v, i.access ≠ .write a v) ∧ i.access ≠ .initialise := by
  cases m with
  | cmd c =>
    have hd : decode c = .ok i := hm
    simp only [Move.mayStore, hd] at hq
    constructor
    · intro v hi
      simp [hi] at hq
    · intro hi
      simp [hi] at hq
  | transfer tr =>
    cases tr with
    | write b bytes =>
      obtain ⟨w, hi⟩ := hm
      have hb : b ≠ a := by simpa [Move.mayStore] using hq
      constructor
      · intro v hv
        rw [hi] at hv
        cases hv
        exact hb rfl
      · rw [hi]; exact Access.noConfusion
    | read b n =>
      have hi : i.access = .readUnsigned b := hm
      rw [hi]
      exact ⟨fun _ => Access.noConfusion, Access.noConfusion⟩
  | env | clash | resetBlock | resetSequencer | proceed => exact hm.elim

/-- A move that may not change the phase issues no INIT. -/
theorem Move.Issues.not_initialise {m : Move} (hm : m.Issues i) (hq : m.mayChangePhase = false) :
    i.access ≠ .initialise := by
  intro hi
  cases m with
  | cmd c =>
    have hd : decode c = .ok i := hm
    simp [Move.mayChangePhase, hd, hi] at hq
  | transfer tr =>
    cases tr with
    | write b bytes =>
      obtain ⟨w, hw⟩ := hm
      rw [hi] at hw
      cases hw
    | read b n => exact Access.noConfusion (hi.symm.trans hm)
  | env | clash | resetBlock | resetSequencer | proceed => exact hm.elim

/-- A step takes at most one move off the script, and leaves the parameters alone. -/
theorem step_frame (h : step s = .next t) :
    t.params = s.params ∧ (s.script = t.script ∨ ∃ m, s.script = m :: t.script) := by
  rcases step_next_by_agent h with ⟨ms, hs, h⟩ | ⟨m, ms, i, hs, -, -, h⟩ | ⟨x, y, ms, hs, rfl⟩ | ⟨ms, hs, rfl⟩ |
    ⟨ms, hs, rfl⟩
  · obtain ⟨hp, rfl, -⟩ := proceed_frame h
    exact ⟨hp, hs.imp_right fun hs => ⟨_, hs⟩⟩
  · obtain ⟨hp, rfl, -⟩ := exec_frame h
    exact ⟨hp, .inr ⟨m, hs⟩⟩
  all_goals exact ⟨rfl, .inr ⟨_, hs⟩⟩

/-! ### The invariant (10_state.md R23, R31, R32) -/

theorem getLsbD_and_cfgWriteMask (v : Word) : (v &&& 0xBFFF).getLsbD 14 = false := by
  rw [BitVec.getLsbD_and]
  simp

theorem getLsbD_and_calWriteMask (v : Word) : (v &&& 0xFFFE).getLsbD 0 = false := by
  rw [BitVec.getLsbD_and]
  simp

/-- Masked stores keep the reserved bits at 0. -/
theorem RegInv.of_stores (h : RegInv s) (hcfg : t.cfg = s.cfg ∨ ∃ v, t.cfg = v &&& 0xBFFF)
    (hcal : t.cal = s.cal ∨ ∃ v, t.cal = v &&& 0xFFFE) : RegInv t := by
  obtain ⟨h14, h0⟩ := h
  constructor
  · rcases hcfg with e | ⟨v, e⟩ <;> rw [e]
    · exact h14
    · exact getLsbD_and_cfgWriteMask v
  · rcases hcal with e | ⟨v, e⟩ <;> rw [e]
    · exact h0
    · exact getLsbD_and_calWriteMask v

/-- Outside INIT the sequencer's invariant is about the phase only. -/
theorem SeqInv.of_phase (h : SeqInv s) (hi : s.inInit = false) (hp : t.phase = s.phase) : SeqInv t := by
  unfold State.inInit at hi
  unfold SeqInv at h ⊢
  rw [hp]
  cases hs : s.phase with
  | cfgWritten c => rw [hs] at hi; cases hi
  | ready c => rw [hs] at h; exact h
  | uninit | failed => trivial

theorem SeqInv.sound_of_cfgWritten {c : CalState} (h : SeqInv s) (hc : s.phase = .cfgWritten c) : c.Sound := by
  unfold SeqInv at h
  rw [hc] at h
  exact h.1

/-- What INIT computes from positive operands is sound: `lsbI * Rsh` is `Imax * Rsh / 32768`, so the two formulas for
`calFull` agree (42_sequencer.md R151). -/
theorem CalState.compute_sound {rsh imax : Rat} (hr : 0 < rsh) (hm : 0 < imax) : (CalState.compute rsh imax).Sound := by
  refine ⟨hr, div_pos hm (by norm_num), ?_⟩
  have hq : (134217728 / 100000 / (imax * rsh) : Rat) = 4096 / 100000 / (imax / 32768 * rsh) := by
    field_simp
    norm_num
  exact congrArg (fun q : Rat => low16 q.floor) hq

/-- A command issued outside INIT keeps the invariant. -/
theorem exec_keeps_inv (hinv : Inv s) (hi : s.inInit = false) (h : exec i s = .next t) : Inv t := by
  obtain ⟨hreg, hclean, hseq⟩ := hinv
  obtain ⟨hparams, -, hphase⟩ := exec_frame h
  obtain ⟨hcfg, hcal⟩ := exec_stores h
  refine ⟨hreg.of_stores (hcfg.imp_right fun ⟨v, hv, _⟩ => ⟨v, hv⟩) (hcal.imp_right fun ⟨v, hv, _⟩ => ⟨v, hv⟩),
    by rwa [hparams], ?_⟩
  by_cases hinit : i.access = .initialise
  · obtain ⟨w, rsh, imax, hr, hm, h⟩ := exec_initialise_next hinit h
    rcases startInit_next h with ⟨-, rfl⟩ | ⟨-, k, -, rfl⟩
    · exact ⟨CalState.compute_sound hr hm, rfl⟩
    · trivial
  · exact hseq.of_phase hi (hphase hinit)

/-- The sequencer's step keeps the invariant: the CalibrationState goes on to READY, or is dropped. -/
theorem proceed_keeps_inv (hinv : Inv s) (h : proceed s = .next t) : Inv t := by
  obtain ⟨hreg, hclean, hseq⟩ := hinv
  rcases proceed_next h with ⟨-, rfl⟩ | ⟨c, hc, -, rfl⟩ | ⟨c, k, -, -, hk, rfl⟩
  · exact ⟨hreg, hclean, hseq⟩
  · exact ⟨hreg.of_stores (.inl s.afterDraw_cfg) (.inr ⟨c.calVal, rfl⟩),
      show ResetClean s.afterDraw.params by rwa [s.afterDraw_params], hseq.sound_of_cfgWritten hc⟩
  · exact ⟨hreg.of_stores (.inl s.afterDraw_cfg) (hk.imp_right fun e => ⟨c.calVal, e⟩),
      show ResetClean s.afterDraw.params by rwa [s.afterDraw_params], trivial⟩

/-- Settles O46: the sequencer and the caller by the two lemmas above; the analog inputs do not enter the invariant; a new
register block takes patterns that `ResetClean` speaks of; a new sequencer has no CalibrationState. -/
theorem stepKeepsTheInvariant : Obligations.StepKeepsTheInvariant := by
  intro s t hinv h
  have hset (ms : List Move) : Inv (s.setScript ms) := hinv
  rcases step_next_by_agent h with ⟨ms, -, h⟩ | ⟨m, ms, i, -, hi, -, h⟩ | ⟨x, y, ms, -, rfl⟩ | ⟨ms, -, rfl⟩ |
    ⟨ms, -, rfl⟩
  · exact proceed_keeps_inv (hset ms) h
  · exact exec_keeps_inv (hset ms) hi h
  · exact hinv
  · obtain ⟨-, hclean, hseq⟩ := hinv
    exact ⟨hclean, hclean, hseq⟩
  · obtain ⟨hreg, hclean, -⟩ := hinv
    exact ⟨hreg, hclean, trivial⟩

/-- Settles O47: at reset both registers hold their reset patterns and the phase is UNINIT. -/
theorem resetMeetsTheInvariant : Obligations.ResetMeetsTheInvariant := fun _ hclean => ⟨hclean, hclean, trivial⟩

/-- Settles O48, by the frame of a step. -/
theorem parametersNeverChange : Obligations.ParametersNeverChange := fun _ _ h =>
  have ⟨hparams, _⟩ := step_frame h
  hparams

/-! ### The latest completed write (20_memory.md section 5) -/

/-- A step whose move may not store at address 0 leaves CFG alone, inside INIT too. -/
theorem step_keeps_cfg (h : step s = .next t) (hq : ∀ m ∈ s.script.head?, m.mayStore 0 = false) : t.cfg = s.cfg := by
  rcases step_next_by_agent h with ⟨ms, -, h⟩ | ⟨m, ms, i, hs, -, hm, h⟩ | ⟨x, y, ms, -, rfl⟩ | ⟨ms, hs, rfl⟩ |
    ⟨ms, -, rfl⟩
  · obtain ⟨-, -, hcfg⟩ := proceed_frame h
    exact hcfg
  · obtain ⟨hwrite, hinit⟩ := hm.not_store (hq m (by simp [hs]))
    obtain ⟨hcfg | ⟨v, -, hi | hi⟩, -⟩ := exec_stores h
    · exact hcfg
    · exact absurd hi (hwrite v)
    · exact absurd hi hinit
  · rfl
  · exact Bool.noConfusion (hq .resetBlock (by simp [hs]))
  · rfl

/-- Outside INIT a step whose move may not store at address 5 leaves CAL alone, and no INIT has begun. -/
theorem step_keeps_cal (h : step s = .next t) (hi : s.inInit = false)
    (hq : ∀ m ∈ s.script.head?, m.mayStore 5 = false) : t.cal = s.cal ∧ t.inInit = false := by
  rcases step_next_by_agent h with ⟨ms, -, h⟩ | ⟨m, ms, i, hs, -, hm, h⟩ | ⟨x, y, ms, -, rfl⟩ | ⟨ms, hs, rfl⟩ |
    ⟨ms, -, rfl⟩
  · obtain rfl := proceed_outside_next (s := s.setScript ms) hi h
    exact ⟨rfl, hi⟩
  · obtain ⟨hwrite, hinit⟩ := hm.not_store (hq m (by simp [hs]))
    obtain ⟨-, -, hphase⟩ := exec_frame h
    obtain ⟨-, hcal | ⟨v, -, ha⟩⟩ := exec_stores h
    · exact ⟨hcal, (State.inInit_congr (hphase hinit)).trans hi⟩
    · exact absurd ha (hwrite v)
  · exact ⟨rfl, hi⟩
  · exact Bool.noConfusion (hq .resetBlock (by simp [hs]))
  · exact ⟨rfl, rfl⟩

theorem run_succ_next {M : Host.Core} {k : Nat} {s u : M.State} (h : M.run (k + 1) s = .next u) :
    ∃ t, M.step s = .next t ∧ M.run k t = .next u := by
  unfold Host.Core.run at h
  split at h
  · next t ht => exact ⟨t, ht, h⟩
  · cases h
  · cases h

/-- What every step keeps whose move is none of the kind `q`, a run keeps none of whose moves is: `k` steps take at most
the first `k` moves. -/
theorem run_keeps {P : State → Prop} {q : Move → Bool}
    (hstep : ∀ s t, P s → (∀ m ∈ s.script.head?, q m = false) → step s = .next t → P t) {k : Nat} :
    ∀ {s u : State}, P s → (∀ m ∈ s.script.take k, q m = false) → Host.Core.run core k s = .next u → P u := by
  induction k with
  | zero =>
    intro s u hP _ h
    cases h
    exact hP
  | succ k ih =>
    intro s u hP hq h
    obtain ⟨t, ht, h⟩ := run_succ_next h
    have hhead : ∀ m ∈ s.script.head?, q m = false := by
      intro m hm
      obtain ⟨ms, hs⟩ := List.head?_eq_some_iff.1 hm
      exact hq m (by simp [hs])
    have htail : ∀ m ∈ t.script.take k, q m = false := by
      intro m hm
      obtain ⟨-, hs | ⟨m', hs⟩⟩ := step_frame ht
      · exact hq m (hs ▸ List.take_subset_take_left _ (Nat.le_succ k) hm)
      · exact hq m (by rw [hs]; exact List.mem_cons_of_mem m' hm)
    exact ih (hstep s t hP hhead ht) htail h

/-- Settles O50: the write leaves the masked word in its register, each step keeps it there (for CAL together with being
outside INIT), and a stored register is read as it stands. -/
theorem latestCompletedWriteIsRead : Obligations.LatestCompletedWriteIsRead := by
  intro v s t u k hs hu hrun
  constructor
  · intro hwrite hq
    rw [exec_wrConfiguration_completes hs] at hwrite
    cases hwrite
    have hcfg : u.cfg = v &&& 0xBFFF :=
      run_keeps (P := fun s => s.cfg = v &&& 0xBFFF) (fun s t hP hm h => (step_keeps_cfg h hm).trans hP) rfl hq hrun
    exact ⟨_, exec_readUnsigned_completes rfl hu (State.readable_of_not_derived (by decide)),
      congrArg (fun w : Word => Response.unsigned w.toNat) hcfg⟩
  · intro hwrite hi hq
    obtain ⟨-, -, hphase⟩ := exec_frame hwrite
    have ht : t.inInit = false := (State.inInit_congr (hphase Access.noConfusion)).trans hi
    rw [exec_wrCalibration_completes hs] at hwrite
    cases hwrite
    obtain ⟨hcal, -⟩ : u.cal = v &&& 0xFFFE ∧ u.inInit = false :=
      run_keeps (P := fun s => s.cal = v &&& 0xFFFE ∧ s.inInit = false)
        (fun s t ⟨hP, hi⟩ hm h => (step_keeps_cal h hi hm).imp_left (·.trans hP))
        ⟨rfl, ht⟩ hq hrun
    exact ⟨_, exec_readUnsigned_completes rfl hu (State.readable_of_not_derived (by decide)),
      congrArg (fun w : Word => Response.unsigned w.toNat) hcal⟩

end Sys2Proof.Machine

/-! The step and the phases (spec/00_scope.md R7, spec/42_sequencer.md R154): which agent acts, how many transactions a
step and a command issue, and what changes the phase and the stored registers. -/

namespace Sys2Proof.Machine

variable {s t : State} {i : Instr}

/-! ### One step by the move at the script's head -/

/-- Outside INIT a command at the head of the script is decoded and executed. -/
theorem step_cmd {c : Command} {ms : List Move} (hs : s.script = .cmd c :: ms) (hi : s.inInit = false)
    (hd : decode c = .ok i) : step s = exec i (s.setScript ms) := by
  rw [step_cons hs (by rw [hi]; rfl)]
  simp only [runMove, runCommand, hd]

/-- The environment's moves, and the one that leaves the step to the sequencer, never wait. -/
theorem step_not_byCaller {m : Move} {ms : List Move} (hs : s.script = m :: ms) (hm : m.byCaller = false) :
    step s = runMove m (s.setScript ms) :=
  step_cons hs (by rw [hm, Bool.and_false])

/-- Settles O5: a command is taken off the script outside INIT (`step_cmd`) and waits inside it. -/
theorem stepRunsTheDecodedInstruction : Obligations.StepRunsTheDecodedInstruction := fun _ _ _ hs =>
  ⟨fun _ hi hd => step_cmd hs hi hd, fun hi => step_waits hs hi rfl⟩

/-- Settles O6: each move by the rule for the head of the script that applies to it. -/
theorem stepMovesOfTheOutside : Obligations.StepMovesOfTheOutside := fun s _ =>
  ⟨fun _ hs hi => step_cons hs (by rw [hi]; rfl), fun _ hs hi => step_waits hs hi rfl,
    fun _ _ hs => step_not_byCaller hs rfl, fun hs => step_not_byCaller hs rfl, fun hs => step_not_byCaller hs rfl,
    fun _ _ hs => step_not_byCaller hs rfl, fun hs => step_not_byCaller hs rfl, step_nil,
    fun hs hi => (step_nil hs).trans (proceed_outside s hi)⟩

/-! ### Transactions and draws -/

/-- The sequencer's step changes nothing, or is INIT's second transaction with its draw. -/
theorem proceed_transaction (h : proceed s = .next t) : t = s ∨
    s.inInit = true ∧ t.drawn = s.afterDraw.drawn ∧ t.draws = s.afterDraw.draws ∧ ∃ x, t.bus = s.bus ++ [x] := by
  rcases proceed_next h with ⟨-, rfl⟩ | ⟨c, hc, -, rfl⟩ | ⟨c, k, hc, -, -, rfl⟩
  · exact .inl rfl
  all_goals exact .inr ⟨(inInit_iff s).2 ⟨c, hc⟩, rfl, rfl, _, rfl⟩

/-- Settles O7: by the agent that acted; the environment issues no transaction. -/
theorem stepIsAtMostOneTransaction : Obligations.StepIsAtMostOneTransaction := by
  intro s t h
  rcases step_next_by_agent h with ⟨ms, -, h⟩ | ⟨m, ms, i, -, hi, -, h⟩ | ⟨x, y, ms, -, rfl⟩ | ⟨ms, -, rfl⟩ |
    ⟨ms, -, rfl⟩
  · rcases proceed_transaction h with rfl | ⟨hi, hdrawn, -, hbus⟩
    · exact ⟨.inl rfl, .inl rfl⟩
    · exact ⟨by rw [hdrawn]; exact (s.setScript ms).afterDraw_drawn, .inr (.inr ⟨hi, hbus⟩)⟩
  · obtain ⟨cfg, cal, phase, resp, x, rfl⟩ := exec_next h
    exact ⟨(s.setScript ms).afterDraw_drawn, .inr (.inl ⟨hi, x, rfl⟩)⟩
  all_goals exact ⟨.inl rfl, .inl rfl⟩

/-- The sequencer's second transaction never is refused, and is INIT's last. -/
theorem proceed_of_cfgWritten {c : CalState} (hc : s.phase = .cfgWritten c) :
    ∃ u, proceed s = .next u ∧ u.bus.length = s.bus.length + 1 ∧ u.inInit = false := by
  rw [proceed_cfgWritten s hc, continueInit_eq]
  split
  · exact ⟨_, rfl, by simp, rfl⟩
  · exact ⟨_, rfl, by simp, rfl⟩

/-- Settles O52: a command has issued one transaction (`exec_next`); only an INIT whose first write completed leaves the
phase in which the sequencer issues another. -/
theorem transactionsPerCommand : Obligations.TransactionsPerCommand := by
  intro i s t h
  have hbus : t.bus.length = 1 := by
    obtain ⟨cfg, cal, phase, resp, x, rfl⟩ := exec_next h
    rfl
  refine ⟨hbus, fun hi hs => ?_, fun hi hp => ?_, fun hi hp => ?_⟩
  · obtain ⟨-, -, hphase⟩ := exec_frame h
    exact proceed_outside t ((State.inInit_congr (hphase hi)).trans hs)
  · rcases exec_initialise_phase hi h with ⟨-, c, hc⟩ | ⟨hf, -⟩
    · obtain ⟨u, hu, hlen, hout⟩ := proceed_of_cfgWritten hc
      exact ⟨u, hu, by omega, proceed_outside u hout⟩
    · rw [hp] at hf; cases hf
  · rcases exec_initialise_phase hi h with ⟨ht, -⟩ | ⟨-, hfailed, hresp⟩
    · rw [hp] at ht; cases ht
    · exact ⟨hresp, proceed_outside t (by simp only [State.inInit, hfailed])⟩

/-- Settles O53: a direct attachment completes every transaction (`State.portOk_direct`) without a draw
(`State.afterDraw_direct`). -/
theorem directAttachmentNeverFails : Obligations.DirectAttachmentNeverFails := by
  refine ⟨fun i s t hd h => ?_, fun s t hd hi h => ?_⟩
  · refine ⟨exec_resp_of_portOk (State.portOk_direct hd) h, ?_⟩
    obtain ⟨cfg, cal, phase, resp, x, rfl⟩ := exec_next h
    rw [State.afterDraw_direct hd]
    exact ⟨rfl, rfl⟩
  · rcases proceed_next h with ⟨hout, -⟩ | ⟨c, -, -, rfl⟩ | ⟨c, k, -, hf, -⟩
    · rw [hi] at hout; cases hout
    · rw [State.afterDraw_direct hd]
      exact ⟨fun _ => Response.noConfusion, rfl, rfl⟩
    · rw [State.portOk_direct hd] at hf; cases hf

/-! ### The phase (42_sequencer.md R154) -/

/-- Outside INIT only an INIT or a new sequencer changes the phase. -/
theorem step_keeps_phase (h : step s = .next t) (hi : s.inInit = false)
    (hq : ∀ m ∈ s.script.head?, m.mayChangePhase = false) : t.phase = s.phase := by
  rcases step_next_by_agent h with ⟨ms, -, h⟩ | ⟨m, ms, i, hs, -, hm, h⟩ | ⟨x, y, ms, -, rfl⟩ | ⟨ms, -, rfl⟩ |
    ⟨ms, hs, rfl⟩
  · obtain rfl := proceed_outside_next (s := s.setScript ms) hi h
    rfl
  · obtain ⟨-, -, hphase⟩ := exec_frame h
    exact hphase (hm.not_initialise (hq m (by simp [hs])))
  · rfl
  · rfl
  · exact Bool.noConfusion (hq .resetSequencer (by simp [hs]))

/-- Inside INIT a step that the environment does not take is the sequencer's. -/
theorem step_is_proceed (hi : s.inInit = true) (hq : ∀ m ∈ s.script.head?, m.byCaller = true ∨ m = .proceed) :
    ∃ ms, step s = proceed (s.setScript ms) := by
  cases hs : s.script with
  | nil => exact ⟨[], (step_nil hs).trans (by rw [← hs]; rfl)⟩
  | cons m ms =>
    rcases hq m (by simp [hs]) with hm | rfl
    · exact ⟨s.script, step_waits hs hi hm⟩
    · exact ⟨ms, step_not_byCaller hs rfl⟩

/-- Settles O36: outside INIT by `step_keeps_phase` and INIT's first transaction; inside it by the sequencer's second
transaction, and by the environment's other moves, which leave the phase alone. -/
theorem phaseChangesOnlyByInitOrReset : Obligations.PhaseChangesOnlyByInitOrReset := by
  refine fun s t h => ⟨step_keeps_phase h, fun c i ms hout hs hd hi => ?_, fun k hk hq => ?_,
    fun k m ms hk hs hm hproceed hreset => ?_⟩
  · rw [step_cmd hs hout hd] at h
    rcases exec_initialise_phase hi h with ⟨-, c, hc⟩ | ⟨-, hfailed, -⟩
    · exact .inr ⟨c, hc⟩
    · exact .inl hfailed
  · obtain ⟨ms, e⟩ := step_is_proceed ((inInit_iff s).2 ⟨k, hk⟩) hq
    rw [e] at h
    exact proceed_phase (s := s.setScript ms) hk h
  · rw [step_not_byCaller hs hm] at h
    cases m with
    | env | resetBlock => cases h; exact hk
    | clash => cases h
    | cmd | transfer => cases hm
    | proceed => exact absurd rfl hproceed
    | resetSequencer => exact absurd rfl hreset

/-! ### The address map (20_memory.md section 4) -/

/-- An instruction that writes is the WR of its address's row. -/
theorem eq_ofWr_of_access {a : Addr} {v : Word} (hi : i.access = .write a v) : i = Instr.ofWr (AddrRow.ofAddr a) v := by
  cases i with
  | wrConfiguration | wrShuntVoltage | wrBusVoltage | wrPower | wrCurrent | wrCalibration => cases hi; rfl
  | wrUnmapped6 => cases hi; rw [← unmapped6_addr, AddrRow.ofAddr_addr]; rfl
  | wrUnmapped8 => cases hi; rw [← unmapped8_addr, AddrRow.ofAddr_addr]; rfl
  | wrUnmapped16 => cases hi; rw [← unmapped16_addr, AddrRow.ofAddr_addr]; rfl
  | wrUnmapped32 => cases hi; rw [← unmapped32_addr, AddrRow.ofAddr_addr]; rfl
  | wrUnmapped64 => cases hi; rw [← unmapped64_addr, AddrRow.ofAddr_addr]; rfl
  | wrUnmapped128 => cases hi; rw [← unmapped128_addr, AddrRow.ofAddr_addr]; rfl
  | _ => cases hi

/-- Settles O49: a command stores by `exec_stores`, at the two addresses whose WR `eq_ofWr_of_access` names; the sequencer leaves CFG alone and,
outside INIT, everything. -/
theorem storedRegistersChangeOnlyByTheirWrites : Obligations.StoredRegistersChangeOnlyByTheirWrites := by
  refine ⟨fun i s t h => ?_, fun s t h => ?_⟩
  · obtain ⟨hcfg, hcal⟩ := exec_stores h
    constructor
    · intro hwr hinit
      rcases hcfg with hcfg | ⟨v, -, hi | hi⟩
      · exact hcfg
      · exact absurd (eq_ofWr_of_access hi) (hwr v)
      · exact absurd hi hinit
    · intro hwr
      rcases hcal with hcal | ⟨v, -, hi⟩
      · exact hcal
      · exact absurd (eq_ofWr_of_access hi) (hwr v)
  · obtain ⟨-, -, hcfg⟩ := proceed_frame h
    exact ⟨hcfg, fun hi => congrArg State.cal (proceed_outside_next hi h)⟩

end Sys2Proof.Machine

/-! The port and INIT (spec/41_register_port.md, spec/42_sequencer.md R153, spec/60_exceptions.md): failing writes and
reads, the bytes on the wire, the input domain, and INIT's two transactions. -/

namespace Sys2Proof.Machine

variable {s t u : State} {i : Instr} {a : Addr} {v : Word}

/-! ### The bytes of a word (20_memory.md R54) -/

theorem hiByte_loByte_toNat (v : Word) : (hiByte v).toNat * 256 + (loByte v).toNat = v.toNat := by
  have := v.isLt
  simp only [hiByte, loByte, BitVec.extractLsb'_toNat, Nat.shiftRight_eq_div_pow]
  omega

theorem wireBytes_append (hi lo : Byte) : wireBytes (hi ++ lo) = [hi, lo] := by
  unfold wireBytes hiByte loByte
  rw [BitVec.extractLsb'_append_eq_left, BitVec.extractLsb'_append_eq_right]

/-! ### Port commands (R131 to R133) -/

/-- Settles O11: a failed write that lands is `writeReg`, which `writeReg_frame` says field by field; one that does not is
the draw alone. -/
theorem wrFailureLandsOrNot : Obligations.WrFailureLandsOrNot := by
  intro i a v s hi hp
  rw [exec_of_write hi, portWrite_eq, hp]
  cases s.nextDraw.failWriteLands with
  | true => simp [writeReg_frame, writeTxn, wireBytes, hiByte, loByte]
  | false => simp [writeTxn, wireBytes, hiByte, loByte]

/-- Settles O12: the two outcomes of `portReadUnsigned_eq` that are no refusal. -/
theorem rduReturnsThePattern : Obligations.RduReturnsThePattern := by
  refine fun i a s hi => ⟨exec_readUnsigned_completes hi, fun hp => ?_⟩
  rw [exec_of_readUnsigned hi, portReadUnsigned_eq, hp]
  rfl

/-- Settles O13: as O12; the signed reading is `sext16` written out. -/
theorem rdsReturnsTheSignedPattern : Obligations.RdsReturnsTheSignedPattern := by
  refine fun i a s hi => ⟨exec_readSigned_completes hi, fun hp => ?_⟩
  rw [exec_of_readSigned hi, portReadSigned_eq, hp]
  rfl

/-- Settles O51: a write's bytes and a completed read's are `wireBytes` of the word; a failed read has no value. -/
theorem wireIsBigEndian : Obligations.WireIsBigEndian := by
  refine ⟨fun i a v s t hi h => ?_, fun i a s t n hi h hr => ?_, fun i a s t z hi h hr => ?_⟩
  · rw [exec_of_write hi] at h
    obtain ⟨r, x, rfl | rfl, -, ans, rfl⟩ := portWrite_next h <;>
      exact ⟨hiByte v, loByte v, ans, rfl, hiByte_loByte_toNat v⟩
  · rw [exec_of_readUnsigned hi] at h
    rcases readFinish_next h with ⟨-, -, rfl⟩ | ⟨-, rfl⟩ <;> cases hr
    exact ⟨_, _, rfl, (hiByte_loByte_toNat _).symm⟩
  · rw [exec_of_readSigned hi] at h
    rcases readFinish_next h with ⟨-, -, rfl⟩ | ⟨-, rfl⟩ <;> cases hr
    refine ⟨_, _, rfl, (sext16_emod _).trans ?_⟩
    exact_mod_cast (hiByte_loByte_toNat _).symm

/-- Settles O56: a list of another length, or another number, is no two bytes; two bytes are those of their word. -/
theorem transfersMoveTwoBytes : Obligations.TransfersMoveTwoBytes := by
  refine fun a s => ⟨fun bytes hlen => ?_, fun length hlen => ?_, fun i hi lo ha => ?_, fun i ha => ?_⟩
  · rcases bytes with _ | ⟨b₀, _ | ⟨b₁, _ | ⟨b₂, bs⟩⟩⟩
    · rfl
    · rfl
    · exact absurd rfl hlen
    · rfl
  · simp only [transferBytes, wireRead, if_neg hlen]
    rfl
  · rw [exec_of_write ha, portWrite, memWrite, wireBytes_append]
    rfl
  · rw [exec_of_readUnsigned ha]
    rfl

/-! ### The input domain (43_scaling_engine.md R185, decision D8) -/

theorem readFinish_outOfDomain_iff (op : PortOp) (k : Word → Response) :
    (memRead op a s.begin).finish id (fun p t => t.answer (k p)) = .refused .outOfDomain ↔
      s.portOk = true ∧ s.readable a = false := by
  rw [readFinish_eq]
  cases s.portOk <;> cases s.readable a <;> simp

theorem portWrite_ne_refused (r : Refusal) : portWrite a v s ≠ .refused r := by
  rw [portWrite_eq]
  split
  · exact nofun
  · split <;> exact nofun

theorem startInit_ne_refused {w : Word} {c : CalState} (r : Refusal) : startInit w c s ≠ .refused r := by
  rw [startInit_eq]
  split <;> exact nofun

/-- Settles O16: the domain as `inputsAdmitted_iff` says it; a read is refused in one case (`readFinish_outOfDomain_iff`);
a WR never is, and INIT only on its operands. -/
theorem derivedReadsOutsideTheDomainAreRefused : Obligations.DerivedReadsOutsideTheDomainAreRefused := by
  refine ⟨fun s a => ?_, fun i a s hi => ?_, fun i op a s hi => ?_, fun i s hi => ?_⟩
  · rw [← Bool.not_eq_true, readable_iff, inputsAdmitted_iff, Classical.not_imp]
    rfl
  · rcases hi with hi | hi
    · rw [exec_of_readUnsigned hi]
      exact readFinish_outOfDomain_iff .rdu _
    · rw [exec_of_readSigned hi]
      exact readFinish_outOfDomain_iff .rds _
  · obtain ⟨scale, e, -⟩ := exec_of_measurement hi s
    rw [e]
    by_cases hready : ∃ c, s.phase = .ready c
    · obtain ⟨c, hc⟩ := hready
      rw [runMeasurement_ready a s op scale hc, ← readFinish_eq a s op (scale c), readFinish_outOfDomain_iff]
      exact (and_iff_right ⟨c, hc⟩).symm
    · rw [runMeasurement_not_ready a s op scale (not_exists.1 hready)]
      exact iff_of_false (by simp) fun h => hready h.1
  · rcases hi with ⟨a, v, hi⟩ | hi
    · rw [exec_of_write hi]
      exact portWrite_ne_refused _
    · rcases exec_of_initialise hi s with e | ⟨rsh, imax, r, g, b, d, -, -, e⟩ <;> rw [e]
      · simp
      · exact startInit_ne_refused _

/-! ### Measurements that do not complete (42_sequencer.md R155) -/

/-- Settles O41: the phase check comes before the read. -/
theorem measurementsNeedReady : Obligations.MeasurementsNeedReady := by
  intro i op a s hi hphase
  obtain ⟨scale, e, -⟩ := exec_of_measurement hi s
  exact e.trans (runMeasurement_not_ready a s op scale hphase)

/-- Settles O42: in READY a measurement is its one read, and the draw comes before the domain check. -/
theorem measurementFailurePropagates : Obligations.MeasurementFailurePropagates := by
  intro i op a s c hi hc hp
  obtain ⟨scale, e, -⟩ := exec_of_measurement hi s
  rw [e, runMeasurement_ready a s op scale hc, hp]
  rfl

/-! ### The packed word's fields (40_config_codec.md R111, R112) -/

section codec

variable (r : BusVoltageRange) (g : Gain) (b d : AdcSetting)

theorem cfgPack_lt : (cfgPack r g b d).toNat < 2 ^ 14 := by
  have hr := r.code.isLt
  have hg := g.code.isLt
  have hb := b.code.isLt
  have hd := d.code.isLt
  rw [cfgPack_toNat]
  omega

/-- A field of the word as a number: the digits of the word in base 2 from bit `k` on. -/
theorem extractLsb'_eq_iff {n : Nat} (w : Word) (k : Nat) (c : BitVec n) :
    w.extractLsb' k n = c ↔ w.toNat / 2 ^ k % 2 ^ n = c.toNat := by
  rw [← BitVec.toNat_inj, BitVec.extractLsb'_toNat, Nat.shiftRight_eq_div_pow]

theorem cfgPack_fields : (cfgPack r g b d).extractLsb' 13 1 = r.code ∧ (cfgPack r g b d).extractLsb' 11 2 = g.code ∧
    (cfgPack r g b d).extractLsb' 7 4 = b.code ∧ (cfgPack r g b d).extractLsb' 3 4 = d.code ∧
    (cfgPack r g b d).extractLsb' 0 3 = modeFixed := by
  have hr := r.code.isLt
  have hg := g.code.isLt
  have hb := b.code.isLt
  have hd := d.code.isLt
  simp only [extractLsb'_eq_iff, cfgPack_toNat]
  refine ⟨?_, ?_, ?_, ?_, ?_⟩
  · omega
  · omega
  · omega
  · omega
  · show _ = 7
    omega

/-- The write mask of CONFIGURATION drops bit 14 only. -/
theorem and_cfgWriteMask_eq_self (h : v.getLsbD 14 = false) : v &&& 0xBFFF = v := by
  have hmask : ∀ j < 16, j ≠ 14 → (0xBFFF : Word).getLsbD j = true := by decide
  ext j hj
  rw [BitVec.getElem_and, ← BitVec.getLsbD_eq_getElem hj, ← BitVec.getLsbD_eq_getElem hj]
  by_cases hj14 : j = 14
  · rw [hj14, h, Bool.false_and]
  · rw [hmask j hj hj14, Bool.and_true]

theorem cfgPack_and_cfgWriteMask : cfgPack r g b d &&& 0xBFFF = cfgPack r g b d :=
  and_cfgWriteMask_eq_self (Nat.testBit_lt_two_pow (cfgPack_lt r g b d))

theorem cfgDec_cfgPack : cfgDec (cfgPack r g b d) = ⟨false, false, r, g, some b, some d, 7, true⟩ := by
  obtain ⟨hr, hg, hb, hd, hmode⟩ := cfgPack_fields r g b d
  have h14 : (cfgPack r g b d).getLsbD 14 = false := Nat.testBit_lt_two_pow (cfgPack_lt r g b d)
  have h15 : (cfgPack r g b d).getLsbD 15 = false :=
    Nat.testBit_lt_two_pow ((cfgPack_lt r g b d).trans (by decide))
  rw [cfgDec, hr, hg, hb, hd, hmode, h14, h15, BusVoltageRange.ofCode_code, Gain.ofCode_code, AdcSetting.ofCode_code,
    AdcSetting.ofCode_code]
  rfl

end codec

/-- Settles O29: the fields are read back (`cfgDec_cfgPack`), so the packed word determines them. -/
theorem cfgCodecRoundTrip : Obligations.CfgCodecRoundTrip := by
  refine ⟨fun r g b d => ⟨cfgDec_cfgPack r g b d, cfgPack_and_cfgWriteMask r g b d⟩, fun r r' g g' b b' d d' h => ?_⟩
  have hdec := congrArg cfgDec h
  rw [cfgDec_cfgPack, cfgDec_cfgPack] at hdec
  cases hdec
  exact ⟨rfl, rfl, rfl, rfl⟩

/-! ### INIT (42_sequencer.md R153, R154) -/

/-- `s` once INIT's first transaction has completed there, with `w` in CFG (R154, the row CFG_WRITTEN). -/
def initStarted (w : Word) (c : CalState) (s : State) : State :=
  { s.afterDraw with cfg := w, phase := .cfgWritten c, resp := .idle, bus := [writeTxn 0 w true] }

section init

variable {rsh imax : Rat} (r : BusVoltageRange) (g : Gain) (b d : AdcSetting) {w : Word} {c : CalState}

theorem exec_init_admitted (hr : 0 < rsh) (hm : 0 < imax) :
    exec (.init rsh imax r.code g.code b.code d.code) s = startInit (cfgPack r g b d) (CalState.compute rsh imax) s := by
  simp only [exec, execInit, if_pos (And.intro hr hm), BusVoltageRange.ofCode_code, Gain.ofCode_code,
    AdcSetting.ofCode_code]

/-- INIT's first transaction, completing. -/
theorem exec_init_completes (hr : 0 < rsh) (hm : 0 < imax) (hp : s.portOk = true) :
    exec (.init rsh imax r.code g.code b.code d.code) s =
      .next (initStarted (cfgPack r g b d) (CalState.compute rsh imax) s) := by
  rw [exec_init_admitted r g b d hr hm, startInit_eq, if_pos hp, cfgPack_and_cfgWriteMask]
  rfl

/-- INIT's first transaction, failing. -/
theorem exec_init_fails (hr : 0 < rsh) (hm : 0 < imax) (hp : s.portOk = false) :
    exec (.init rsh imax r.code g.code b.code d.code) s = .next { s.afterDraw with
      cfg := if s.nextDraw.failWriteLands then cfgPack r g b d else s.cfg
      phase := .failed, resp := .ioFailure ⟨.wr, 0⟩, bus := [writeTxn 0 (cfgPack r g b d) false] } := by
  rw [exec_init_admitted r g b d hr hm, startInit_eq, hp, cfgPack_and_cfgWriteMask]
  rfl

/-- INIT's second transaction, completing. -/
theorem proceed_completes (hc : s.phase = .cfgWritten c) (hp : s.portOk = true) :
    proceed s = .next { s.afterDraw with
      cal := c.calVal &&& 0xFFFE, phase := .ready c, resp := .done, bus := s.bus ++ [writeTxn 5 c.calVal true] } := by
  rw [proceed_cfgWritten s hc, continueInit_eq, if_pos hp]

/-- INIT's second transaction, failing. -/
theorem proceed_fails (hc : s.phase = .cfgWritten c) (hp : s.portOk = false) :
    proceed s = .next { s.afterDraw with
      cal := if s.nextDraw.failWriteLands then c.calVal &&& 0xFFFE else s.cal
      phase := .failed, resp := .ioFailure ⟨.wr, 5⟩, bus := s.bus ++ [writeTxn 5 c.calVal false] } := by
  rw [proceed_cfgWritten s hc, continueInit_eq, hp]
  rfl

theorem initStarted_afterDraw : (initStarted w c s).afterDraw = { s.afterDraw.afterDraw with
    cfg := w, phase := .cfgWritten c, resp := .idle, bus := [writeTxn 0 w true] } := by
  rw [initStarted, State.update_afterDraw]
  simp

/-- The second transaction from where a completed first one left, completing: its draw is the one after the first's. -/
theorem proceed_initStarted_completes (hp : s.afterDraw.portOk = true) :
    proceed (initStarted w c s) = .next { s.afterDraw.afterDraw with
      cfg := w, cal := c.calVal &&& 0xFFFE, phase := .ready c, resp := .done
      bus := [writeTxn 0 w true, writeTxn 5 c.calVal true] } := by
  rw [proceed_completes (s := initStarted w c s) rfl hp, initStarted_afterDraw]
  rfl

theorem proceed_initStarted_fails (hp : s.afterDraw.portOk = false) :
    proceed (initStarted w c s) = .next { s.afterDraw.afterDraw with
      cfg := w, cal := if s.afterDraw.nextDraw.failWriteLands then c.calVal &&& 0xFFFE else s.cal
      phase := .failed, resp := .ioFailure ⟨.wr, 5⟩
      bus := [writeTxn 0 w true, writeTxn 5 c.calVal false] } := by
  have hcal : (initStarted w c s).cal = s.cal := s.afterDraw_cal
  rw [proceed_fails (s := initStarted w c s) rfl hp, initStarted_afterDraw, hcal]
  rfl

end init

/-- Settles O31: the second transaction starts from what the first left. -/
theorem initWritesConfigurationThenCalibration : Obligations.InitWritesConfigurationThenCalibration := by
  rintro rsh imax r g b d w k s hr hm hp rfl rfl
  exact ⟨_, exec_init_completes r g b d hr hm hp, rfl, proceed_initStarted_completes⟩

/-- Settles O33: the first write's failure leaves FAILED, from where the sequencer issues nothing; the second's keeps the
first's word in CFG. -/
theorem initFailureLeavesNoInstance : Obligations.InitFailureLeavesNoInstance := by
  rintro rsh imax r g b d w k s hr hm rfl rfl
  exact ⟨fun hp => ⟨_, exec_init_fails r g b d hr hm hp, rfl, proceed_outside _ rfl⟩,
    fun hp hp₂ => ⟨_, exec_init_completes r g b d hr hm hp, proceed_initStarted_fails hp₂⟩⟩

/-- Inside INIT, with no move of the environment next, the step is the sequencer's and takes no move. -/
theorem step_blocked (hi : s.inInit = true) (hq : ∀ m ∈ s.script.head?, m.byCaller = true) : step s = proceed s := by
  cases hs : s.script with
  | nil => exact step_nil hs
  | cons m ms => exact step_waits hs hi (hq m (by simp [hs]))

theorem run_two {M : Host.Core} {s t u : M.State} (h₁ : M.step s = .next t) (h₂ : M.step t = .next u) :
    M.run 2 s = .next u := by
  simp only [Host.Core.run, h₁, h₂]

/-- Settles O32: the step on the command is INIT's first transaction; then the caller is blocked, so the next step is the
sequencer's. -/
theorem twoStepsCompleteInit : Obligations.TwoStepsCompleteInit := by
  rintro rsh imax r g b d c ms w k s hr hm hi hp hp₂ hs hd hq rfl rfl
  have hdraw : (s.setScript ms).afterDraw = s.afterDraw.setScript ms := s.setScript_afterDraw ms
  have hfirst := (step_cmd hs hi hd).trans (exec_init_completes (s := s.setScript ms) r g b d hr hm hp)
  refine run_two (M := core) hfirst ((step_blocked rfl ?_).trans ?_)
  · show ∀ m ∈ (s.setScript ms).afterDraw.script.head?, m.byCaller = true
    rwa [State.afterDraw_script]
  · rw [proceed_initStarted_completes (by rw [hdraw]; exact hp₂), hdraw, State.setScript_afterDraw]
    rfl

/-- The settings of `AdcSetting` are the codes outside 4 to 8. -/
theorem exists_ofCode_eq_some {c : BitVec 4} (hc : c.toNat ≤ 3 ∨ 9 ≤ c.toNat) : ∃ b, AdcSetting.ofCode c = some b := by
  rw [← Option.isSome_iff_exists, Option.isSome_iff_ne_none, Ne, AdcSetting.ofCode_eq_none_iff]
  omega

theorem admitted_of_ofCode_eq_some {c : BitVec 4} {b : AdcSetting} (hb : AdcSetting.ofCode c = some b) :
    c.toNat ≤ 3 ∨ 9 ≤ c.toNat := by
  have hnone : AdcSetting.ofCode c ≠ none := by rw [hb]; exact Option.some_ne_none b
  rw [Ne, AdcSetting.ofCode_eq_none_iff] at hnone
  omega

/-- Settles O34: the operand check fails exactly there, and INIT's first transaction is never refused. -/
theorem initRefusesOperandsOutsideTheirTypes : Obligations.InitRefusesOperandsOutsideTheirTypes := by
  intro rsh imax range gain badc sadc s
  simp only [exec, execInit]
  split
  · next hpos =>
    split
    · next b d hb hd =>
      exact iff_of_false (startInit_ne_refused _)
        (not_not_intro ⟨hpos.1, hpos.2, admitted_of_ofCode_eq_some hb, admitted_of_ofCode_eq_some hd⟩)
    · next hnone =>
      refine iff_of_true rfl fun ⟨_, _, hb, hd⟩ => ?_
      obtain ⟨b, hb⟩ := exists_ofCode_eq_some hb
      obtain ⟨d, hd⟩ := exists_ofCode_eq_some hd
      exact hnone b d hb hd
  · next hpos => exact iff_of_true rfl fun ⟨hr, hm, _⟩ => hpos ⟨hr, hm⟩

theorem memWrite_completes (hp : s.portOk = true) :
    memWrite a v s = .ok () ((writeReg a v s.afterDraw).addTxn (writeTxn a v true)) := by
  rw [memWrite_eq, if_pos hp]

/-- A failed write leaves every stored register but its own. -/
theorem memWrite_fails (hp : s.portOk = false) : ∃ t, memWrite a v s = .failed ⟨.wr, a⟩ t ∧
    (a ≠ 0 → t.cfg = s.cfg) ∧ (a ≠ 5 → t.cal = s.cal) := by
  rw [memWrite_eq, hp]
  cases s.nextDraw.failWriteLands with
  | true =>
    rw [writeReg_frame]
    exact ⟨_, rfl, fun ha => (if_neg ha).trans s.afterDraw_cfg, fun ha => (if_neg ha).trans s.afterDraw_cal⟩
  | false => exact ⟨_, rfl, fun _ => s.afterDraw_cfg, fun _ => s.afterDraw_cal⟩

/-- Settles O35: the two transactions are `memWrite` at addresses 0 and 5 with the phase set after them; `proceed` is the
second of them. -/
theorem initPassesThroughCfgWritten : Obligations.InitPassesThroughCfgWritten := by
  refine ⟨fun w c s => ⟨fun hp => ?_, fun hp => ?_, fun hp => ?_, fun hp => ?_⟩,
    fun c s hc => ⟨proceed_completes hc, proceed_fails hc⟩⟩
  · rw [initConfiguration, memWrite_completes (s := s.begin.setPhase .uninit) hp]
    exact ⟨_, rfl, rfl, rfl, by simp [writeReg_frame]⟩
  · obtain ⟨t, ht, -, hcal⟩ := memWrite_fails (a := 0) (v := w) (s := s.begin.setPhase .uninit) hp
    rw [initConfiguration, ht]
    exact ⟨_, rfl, rfl, hcal (by decide)⟩
  · rw [initCalibration, memWrite_completes hp]
    exact ⟨_, rfl, rfl, rfl, by simp [writeReg_frame]⟩
  · obtain ⟨t, ht, hcfg, -⟩ := memWrite_fails (a := 5) (v := c.calVal) hp
    rw [initCalibration, ht]
    exact ⟨_, rfl, rfl, hcfg (by decide)⟩

/-! ### Reset and binding (10_state.md R36, 60_exceptions.md R226) -/

/-- Settles O54: `State.resetWith` at its fields. -/
theorem resetValues : Obligations.ResetValues := ⟨fun _ => ⟨rfl, rfl, rfl, rfl⟩, Params.initial, rfl⟩

/-- A code that names a device is that device's code. -/
theorem code_of_mem_ofCode : ∀ c : BitVec 7, ∀ d ∈ DeviceAddress.ofCode c, d.code = c := by decide

/-- Settles O55: `ofCode` names a device exactly for the four codes. -/
theorem onlyFourDeviceAddressesBind : Obligations.OnlyFourDeviceAddressesBind := by
  intro code p
  rw [← DeviceAddress.exists_code_eq_iff]
  constructor
  · rintro ⟨d, rfl⟩
    exact ⟨d, rfl, by simp only [bindTransport, DeviceAddress.ofCode_code]⟩
  · intro hnone
    have hcode : DeviceAddress.ofCode code = none :=
      Option.eq_none_iff_forall_not_mem.2 fun d hd => hnone ⟨d, code_of_mem_ofCode code d hd⟩
    simp only [bindTransport, hcode]

end Sys2Proof.Machine

/-! The datapath and the measurements (spec/00_scope.md R12, spec/43_scaling_engine.md R185 to R199, spec/42_sequencer.md
R155 to R161): the codes, what BUS_VOLTAGE and POWER read, and the four results. -/

namespace Sys2Proof.Machine

/-! ### Rounding (00_scope.md R12) -/

theorem floor_add_half (n : Int) : ((n : Rat) + 1 / 2).floor = n := by
  show ⌊(n : Rat) + 1 / 2⌋ = n
  exact Int.floor_eq_iff.2 ⟨by linarith, by linarith⟩

/-- Rounding up at halves: the floor after adding a half is within a half. -/
theorem abs_floor_add_half_sub_le (q : Rat) : |((q + 1 / 2).floor : Rat) - q| ≤ 1 / 2 := by
  have h₁ := Rat.floor_le (q + 1 / 2)
  have h₂ := Rat.lt_floor (x := q + 1 / 2)
  rw [abs_le]
  constructor <;> linarith

theorem abs_roundAdc_sub_le (tie : AdcTie) (q : Rat) : |(roundAdc tie q : Rat) - q| ≤ 1 / 2 := by
  cases tie with
  | halfUp => exact abs_floor_add_half_sub_le q
  | halfAway =>
    simp only [roundAdc]
    split
    · exact abs_floor_add_half_sub_le q
    · have h := abs_floor_add_half_sub_le (-q)
      rw [abs_sub_comm] at h
      push_cast
      convert h using 2
      ring
  | halfEven =>
    have h₁ := Rat.floor_le q
    have h₂ := Rat.lt_floor (x := q)
    simp only [roundAdc]
    rw [abs_le]
    split
    · constructor <;> linarith
    · split
      · push_cast
        constructor <;> linarith
      · split
        · constructor <;> linarith
        · push_cast
          constructor <;> linarith

/-- Settles O26: exactly half way, adding a half gives an integer, on either side of 0; the fraction is neither below nor
above a half. -/
theorem roundAdcIsNearest : Obligations.RoundAdcIsNearest := by
  refine ⟨abs_roundAdc_sub_le, fun n => ?_⟩
  have hup : ((n : Rat) + 1 / 2 + 1 / 2).floor = n + 1 := by
    rw [← Rat.floor_intCast (n + 1)]
    congr 1
    push_cast
    ring
  have hdown : -(-((n : Rat) + 1 / 2) + 1 / 2).floor = n := by
    rw [← neg_inj, neg_neg, ← Rat.floor_intCast (-n)]
    congr 1
    push_cast
    ring
  have hsign : 0 ≤ (n : Rat) + 1 / 2 ↔ 0 ≤ n := by
    rw [← Int.cast_zero, ← Rat.le_floor_iff, floor_add_half]
  refine ⟨hup, ?_, ?_⟩
  · simp only [roundAdc, hsign, hup, hdown]
  · simp only [roundAdc, floor_add_half, add_sub_cancel_left, lt_irrefl, if_false]

/-! ### The codes (43_scaling_engine.md R185 to R195) -/

section codes

variable {s : State}

theorem State.currentCode_eq_bmod (s : State) : s.currentCode = (s.shuntCode * s.cal.toNat).bmod (2 ^ 32) / 4096 := by
  rw [State.currentCode, Machine.currentCode, asr_eq_ediv, curProd, wrap32_eq_bmod]
  rfl

theorem State.powerCode_eq_bmod (s : State) : s.powerCode = (s.currentCode * s.busQ).bmod (2 ^ 32) / 5000 := by
  rw [State.powerCode, Machine.powerCode, fdiv_eq_ediv _ (by decide), powProd, wrap32_eq_bmod]

/-- Where both products fit, neither wraps. -/
theorem NoWideOverflow.currentCode_eq (h : NoWideOverflow s) : s.currentCode = s.shuntCode * s.cal.toNat / 4096 := by
  obtain ⟨hlo, hhi, -, -⟩ := h
  rw [State.currentCode_eq_bmod, ← wrap32_eq_bmod, wrap32_id hlo hhi]

theorem NoWideOverflow.powerCode_eq (h : NoWideOverflow s) : s.powerCode = s.currentCode * s.busQ / 5000 := by
  have hcur := h.currentCode_eq
  obtain ⟨-, -, hlo, hhi⟩ := h
  rw [Int.fdiv_eq_ediv_of_nonneg _ (by decide), ← hcur] at hlo hhi
  rw [State.powerCode_eq_bmod, ← wrap32_eq_bmod, wrap32_id hlo hhi]

/-- Settles O22: the patterns are the codes modulo 65536. -/
theorem noWideOverflowMakesProductsExact : Obligations.NoWideOverflowMakesProductsExact := by
  intro s h
  have hcurrent : ((s.pattern 4).toNat : Int) = s.currentCode % 65536 := low16_toNat _
  have hpower : ((s.pattern 3).toNat : Int) = s.powerCode % 65536 := low16_toNat _
  rw [hcurrent, hpower, h.powerCode_eq, h.currentCode_eq]
  exact ⟨rfl, rfl⟩

theorem abs_mul_le_mul {x y X Y : Int} (hx : |x| ≤ X) (hy : |y| ≤ Y) : |x * y| ≤ X * Y := by
  rw [abs_mul]
  exact mul_le_mul hx hy (abs_nonneg y) ((abs_nonneg x).trans hx)

theorem abs_currentCode_le (k : Int) (c : Word) : |currentCode k c| ≤ 2 ^ 19 := by
  obtain ⟨hlo, hhi⟩ := currentCode_range k c
  exact abs_le.2 ⟨hlo, hhi.trans (by decide)⟩

/-- The second product as floor division; a bound below the i32 range on either side is enough for it. -/
theorem NoWideOverflow.of_abs (hlo : -2 ^ 31 ≤ s.shuntCode * s.cal.toNat) (hhi : s.shuntCode * s.cal.toNat ≤ 2 ^ 31 - 1)
    (hq : |s.shuntCode * s.cal.toNat / 4096 * s.busQ| ≤ 2 ^ 31 - 1) : NoWideOverflow s := by
  rw [abs_le] at hq
  rw [NoWideOverflow, Int.fdiv_eq_ediv_of_nonneg _ (by decide)]
  omega

/-- Settles O23: each product is bounded by the product of its factors' bounds; 20 bits of current code times a bus code
below 2^12 stay within 32 bits. -/
theorem noWideOverflowSufficientConditions : Obligations.NoWideOverflowSufficientConditions := by
  have hfield {x X : Int} (h0 : 0 ≤ x) (hX : x ≤ X) : |x| ≤ X := (abs_of_nonneg h0).trans_le hX
  refine ⟨fun s hlo hhi h0 hq => ?_, fun s hlo hhi hcur h0 hq => ?_, fun s h0 hq => ?_⟩
  · have hcal := s.cal.isLt
    have hp : |s.shuntCode * s.cal.toNat| ≤ 32768 * 65535 :=
      abs_mul_le_mul (abs_le.2 ⟨hlo, by omega⟩) (hfield (by omega) (by omega))
    rw [abs_le] at hp
    have hcur : |s.shuntCode * s.cal.toNat / 4096| ≤ 2 ^ 19 := abs_le.2 (by omega)
    exact .of_abs (by omega) (by omega) ((abs_mul_le_mul hcur (hfield h0 hq)).trans (by decide))
  · exact .of_abs hlo hhi ((abs_mul_le_mul hcur (hfield h0 hq)).trans (by decide))
  · have h : |s.currentCode * s.busQ| ≤ 2 ^ 19 * 4095 :=
      abs_mul_le_mul (abs_currentCode_le s.shuntCode s.cal) (hfield h0 hq)
    rw [abs_le] at h
    omega

/-- Settles O27: the wrapped products are i32, and a floor division by 5000 takes that range to the last one. -/
theorem codesStayInRange : Obligations.CodesStayInRange := by
  intro s hin
  obtain ⟨hshunt, hbus⟩ := (inputsAdmitted_iff s).1 hin
  have hbusCode := busCode_eq s
  have hpow : -2 ^ 31 ≤ powProd s.currentCode s.busQ ∧ powProd s.currentCode s.busQ ≤ 2 ^ 31 - 1 := wrap32_range _
  refine ⟨hshunt, hbus, ⟨by omega, by omega, hbusCode⟩, wrap32_range _, currentCode_range _ _, hpow, ?_⟩
  rw [State.powerCode, Machine.powerCode, fdiv_eq_ediv _ (by decide)]
  omega

end codes

/-! ### BUS_VOLTAGE and POWER (R198, R199) -/

/-- The flag goes into a bit that the shifted bus code leaves 0, so the two are added. -/
theorem toNat_or_flag {w : Word} (hw : w.toNat % 8 = 0) (f : Bool) :
    (w ||| if f then 1 else 0).toNat = w.toNat + if f then 1 else 0 := by
  cases f with
  | false => simp
  | true =>
    have h8 : w.toNat = 2 ^ 3 * (w.toNat / 8) := by omega
    show (w ||| 1).toNat = w.toNat + 1
    rw [BitVec.toNat_or, h8, Nat.two_pow_add_eq_or_of_lt (by decide)]
    rfl

/-- R198 as a number: eight times the bus field, plus the flag. -/
theorem busVoltagePattern_toNat (s : State) :
    ((s.pattern 2).toNat : Int) = 8 * (s.busQ % 8192) + if ovf s.shuntCode then 1 else 0 := by
  have hcode : ((low16 (busCode s.vbus)).toNat : Int) = 8 * (s.busQ % 8192) := by
    rw [low16_toNat, busCode_eq]
    omega
  show ((busVoltagePattern s).toNat : Int) = _
  rw [busVoltagePattern, toNat_or_flag (by omega)]
  push_cast
  rw [hcode]

/-- Settles O19: both reads return `busVoltagePattern_toNat`, which is below 65536. -/
theorem busVoltageReadsVoltageAndFlag : Obligations.BusVoltageReadsVoltageAndFlag := by
  rintro s k q rfl rfl hp hr
  have hnum := busVoltagePattern_toNat s
  simp only [ovf_iff] at hnum
  obtain ⟨hlo, hhi⟩ := sext16_range (s.pattern 2)
  exact ⟨⟨_, _, exec_readUnsigned_completes rfl hp hr, rfl, hnum⟩,
    ⟨_, _, exec_readSigned_completes rfl hp hr, rfl, hlo, hhi, (sext16_emod _).trans hnum⟩⟩

/-- Settles O21: the pattern is `low16(powerCode)`, with both codes written as balanced residues. -/
theorem powerReadsTheWrappedProduct : Obligations.PowerReadsTheWrappedProduct := by
  rintro s k q c rfl rfl rfl hp hr
  have hpat : s.pattern 3 = low16 ((s.currentCode * s.busQ).bmod (2 ^ 32) / 5000) :=
    congrArg low16 s.powerCode_eq_bmod
  rw [State.currentCode_eq_bmod] at hpat
  exact ⟨exec_readUnsigned_code rfl hp hr hpat, exec_readSigned_code rfl hp hr hpat⟩

/-! ### The four results (42_sequencer.md R155 to R159) -/

section measurements

variable {s t : State} {c : CalState} {op : PortOp} {a : Addr} {scale : CalState → Word → Response}

theorem runMeasurement_completes (hc : s.phase = .ready c) (hp : s.portOk = true) (hr : s.readable a = true) :
    runMeasurement op a scale s = .next { s.afterDraw with
      resp := scale c (s.pattern a), bus := [readTxn a (some (s.pattern a))] } := by
  rw [runMeasurement_ready a s op scale hc, if_pos hp, if_pos hr]

/-! The four measurements with their addresses as numbers. -/

theorem exec_getsv (s : State) :
    exec .getsv s = runMeasurement .rds 1 (fun _ p => measured (sext16 p) (1 / 100000)) s := rfl

theorem exec_getbv (s : State) :
    exec .getbv s = runMeasurement .rdu 2 (fun _ p => measured (lsr16 p 3) (1 / 250)) s := rfl

theorem exec_geti (s : State) : exec .geti s = runMeasurement .rds 4 (fun c p => measured (sext16 p) c.lsbI) s := rfl

theorem exec_getp (s : State) :
    exec .getp s = runMeasurement .rdu 3 (fun c p => measured (zext16 p) (20 * c.lsbI)) s := rfl

/-- A measurement that answers a triple has scaled the pattern. -/
theorem runMeasurement_measured {code : Int} {weight value : Rat} (hc : s.phase = .ready c)
    (h : runMeasurement op a scale s = .next t) (ht : t.resp = .measured code weight value) :
    scale c (s.pattern a) = .measured code weight value := by
  obtain ⟨c', hc', h⟩ := runMeasurement_next h
  rw [hc] at hc'
  cases hc'
  rcases readFinish_next h with ⟨-, -, rfl⟩ | ⟨-, rfl⟩
  · exact ht
  · cases ht

/-- GETBV's code is the bus field: the shift drops the flag (R157). -/
theorem lsr16_busVoltagePattern (s : State) : (lsr16 (s.pattern 2) 3 : Int) = s.busQ % 8192 := by
  have h := busVoltagePattern_toNat s
  rw [lsr16]
  split at h <;> omega

end measurements

/-- Settles O37: the completed read, scaled. -/
theorem getsvScalesTheShuntVoltage : Obligations.GetsvScalesTheShuntVoltage := by
  rintro s c z hc hp hr rfl
  rw [exec_getsv, runMeasurement_completes hc hp hr, measured, sext16_eq_toInt, mul_one_div]
  rfl

/-- Settles O38: whatever the flag, the code is the bus field (`lsr16_busVoltagePattern`). -/
theorem getbvScalesTheBusVoltage : Obligations.GetbvScalesTheBusVoltage := by
  rintro s c q hc hp hr rfl
  have hweight : (1 / 250 : Rat) = 4 / 1000 := by norm_num
  rw [exec_getbv, runMeasurement_completes hc hp hr, measured, lsr16_busVoltagePattern, mul_one_div, hweight]
  rfl

/-- Settles O39: as O37, at CURRENT. -/
theorem getiScalesTheCurrent : Obligations.GetiScalesTheCurrent := by
  rintro s c z hc hp hr rfl
  rw [exec_geti, runMeasurement_completes hc hp hr, measured, sext16_eq_toInt]
  rfl

/-- Settles O40: the completed read of POWER, taken as unsigned. -/
theorem getpScalesThePower : Obligations.GetpScalesThePower := by
  rintro s c n hc hp hr rfl
  rw [exec_getp, runMeasurement_completes hc hp hr, measured, ← mul_assoc]
  rfl

theorem sext16_range_rat (u : Word) : (-32768 : Rat) ≤ sext16 u ∧ (sext16 u : Rat) ≤ 32767 := by
  exact_mod_cast sext16_range u

/-- Settles O43: the codes are s16, 13-bit, s16 and u16 numbers, and the weights are not negative. -/
theorem measurementsStayInRange : Obligations.MeasurementsStayInRange := by
  intro s c op a i t code weight value hc hl hi h ht
  cases i with
  | getsv =>
    obtain ⟨hlo, hhi⟩ := sext16_range_rat (s.pattern 1)
    rw [exec_getsv] at h
    cases runMeasurement_measured hc h ht
    exact ⟨rfl, fun _ => ⟨by linarith, by linarith⟩, nofun, nofun, nofun⟩
  | getbv =>
    have hlt : (s.pattern 2).toNat < 65536 := (s.pattern 2).isLt
    have hhi : ((lsr16 (s.pattern 2) 3 : Int) : Rat) ≤ 8191 := by
      exact_mod_cast (show (s.pattern 2).toNat / 2 ^ 3 ≤ 8191 by omega)
    have hlo : (0 : Rat) ≤ (lsr16 (s.pattern 2) 3 : Int) := by positivity
    rw [exec_getbv] at h
    cases runMeasurement_measured hc h ht
    exact ⟨rfl, nofun, fun _ => ⟨by linarith, by linarith⟩, nofun, nofun⟩
  | geti =>
    obtain ⟨hlo, hhi⟩ := sext16_range_rat (s.pattern 4)
    rw [exec_geti] at h
    cases runMeasurement_measured hc h ht
    refine ⟨rfl, nofun, nofun, fun _ => ⟨?_, mul_le_mul_of_nonneg_right hhi hl.le⟩, nofun⟩
    rw [← neg_mul]
    exact mul_le_mul_of_nonneg_right hlo hl.le
  | getp =>
    have hlt : (s.pattern 3).toNat < 65536 := (s.pattern 3).isLt
    have hhi : ((zext16 (s.pattern 3) : Int) : Rat) ≤ 65535 := by
      exact_mod_cast (show (s.pattern 3).toNat ≤ 65535 by omega)
    have hlo : (0 : Rat) ≤ (zext16 (s.pattern 3) : Int) := by positivity
    rw [exec_getp] at h
    cases runMeasurement_measured hc h ht
    refine ⟨rfl, nofun, nofun, nofun, fun _ => ⟨by positivity, ?_⟩⟩
    rw [mul_assoc]
    exact mul_le_mul_of_nonneg_right hhi (by positivity)
  | _ => cases hi

/-- Settles O44: without wraps the code is `floor(currentCode * busQ / 5000)`, and one step of it is 5000 steps of the
product of the two LSBs. -/
theorem getpIsWithinOnePowerLsb : Obligations.GetpIsWithinOnePowerLsb := by
  intro s c hc hl hp hr hwide h0 hfit
  have hcode : (zext16 (s.pattern 3) : Int) = s.powerCode :=
    (low16_toNat s.powerCode).trans (Int.emod_eq_of_lt h0 (by omega))
  have hfloor := hwide.powerCode_eq
  have hle : ((s.powerCode * 5000 : Int) : Rat) ≤ (s.currentCode * s.busQ : Int) := by
    exact_mod_cast (show s.powerCode * 5000 ≤ s.currentCode * s.busQ by omega)
  have hlt : ((s.currentCode * s.busQ : Int) : Rat) < (s.powerCode * 5000 + 5000 : Int) := by
    exact_mod_cast (show s.currentCode * s.busQ < s.powerCode * 5000 + 5000 by omega)
  push_cast at hle hlt
  refine ⟨_, _, _, _, (exec_getp s).trans (runMeasurement_completes hc hp hr), rfl, ?_, ?_⟩
  · rw [hcode]
    have h := mul_le_mul_of_nonneg_right hle hl.le
    linarith
  · rw [hcode]
    have h := mul_lt_mul_of_pos_right hlt hl
    linarith

/-- A `calFull` that fits is sent whole, and the register holds no more than it (R151, decision D17). -/
theorem calValue_masked_le {rsh imax : Rat} (hr : 0 < rsh) (hm : 0 < imax) (hfit : calFull rsh imax ≤ 65535) :
    ((calValue rsh imax &&& 0xFFFE).toNat : Rat) ≤ 134217728 / 100000 / (imax * rsh) := by
  have h0 : 0 ≤ calFull rsh imax := Rat.le_floor_iff.2 (by positivity)
  have hval : ((calValue rsh imax).toNat : Int) = calFull rsh imax :=
    (low16_toNat _).trans (Int.emod_eq_of_lt h0 (by omega))
  have hmask : (calValue rsh imax &&& 0xFFFE).toNat ≤ (calValue rsh imax).toNat := by
    rw [BitVec.toNat_and]
    exact Nat.and_le_left
  calc ((calValue rsh imax &&& 0xFFFE).toNat : Rat) ≤ (calFull rsh imax : Int) := by
        rw [← hval]
        exact_mod_cast hmask
    _ ≤ 134217728 / 100000 / (imax * rsh) := Rat.floor_le _

/-- Settles O45: CAL is at most `0.04096 / (lsbI * Rsh)`, so the code, a floor, times `lsbI` is at most the shunt voltage
over `Rsh`. -/
theorem getiNeverExceedsOhmsLaw : Obligations.GetiNeverExceedsOhmsLaw := by
  intro s rsh imax hr hm hfit hc hcal hp hread h0 hcode
  have hz0 : 0 ≤ s.shuntCode * s.cal.toNat / 4096 := by positivity
  have hpat : sext16 (s.pattern 4) = s.shuntCode * s.cal.toNat / 4096 := by
    have hlow : s.pattern 4 = low16 (s.shuntCode * s.cal.toNat / 4096) :=
      (low16_eq_iff _ _).2 (currentCode_emod s.shuntCode s.cal)
    rw [hlow, sext16_low16 (by omega) hcode]
  have hle : (s.cal.toNat : Rat) ≤ 134217728 / 100000 / (imax * rsh) := by
    rw [hcal]
    exact calValue_masked_le hr hm hfit
  have hfloor : ((s.shuntCode * s.cal.toNat / 4096 : Int) : Rat) * 4096 ≤ s.shuntCode * s.cal.toNat := by
    exact_mod_cast (show s.shuntCode * s.cal.toNat / 4096 * 4096 ≤ s.shuntCode * s.cal.toNat by omega)
  have hlsb : (CalState.compute rsh imax).lsbI = imax / 32768 := rfl
  refine ⟨_, _, _, _, (exec_geti s).trans (runMeasurement_completes hc hp hread), rfl, ?_, ?_⟩ <;> rw [hpat, hlsb]
  · exact mul_nonneg (by exact_mod_cast hz0) (by positivity)
  · have hk : (0 : Rat) ≤ s.shuntCode := by exact_mod_cast h0
    calc ((s.shuntCode * s.cal.toNat / 4096 : Int) : Rat) * (imax / 32768)
        ≤ s.shuntCode * s.cal.toNat / 4096 * (imax / 32768) :=
          mul_le_mul_of_nonneg_right (by linarith) (by positivity)
      _ ≤ s.shuntCode * (134217728 / 100000 / (imax * rsh)) / 4096 * (imax / 32768) := by gcongr
      _ = s.shuntCode / 100000 / rsh := by
          field_simp
          ring

end Sys2Proof.Machine
